-- ==== Sys2Proof/Word.lean ====
section
/-! DEFINITION. The word types of the block's ports and of its frame buffer (spec/00_scope.md R9, R10). -/

namespace Sys2Proof

/-- A wire byte, a colour channel value, a byte of the frame buffer (R9, R21): 8 bits. -/
abbrev Byte := BitVec 8

/-- A command word `CMD[63:0]` (R9, R70). -/
abbrev Cmd := BitVec 64

/-- An LED index field, a read-port address, a status word (R9, R24, R33): 32 bits. -/
abbrev Word32 := BitVec 32

end Sys2Proof
end

