-- ==== Sys2Proof/Config.lean ====
section
/-! DEFINITION. The block's build-time parameters (spec/00_scope.md R6 to R8) and the free values of the model: constants
without a body, so that no proof can see which value they have. -/

namespace Sys2Proof

/-- The admitted values of `P_HI`, a "mostly-1 byte pattern" `1^a 0^(8-a)` with `a` in 5, 6, 7 (R8). -/
inductive HiPattern where
  | ones5   -- 0xF8
  | ones6   -- 0xFC
  | ones7   -- 0xFE
  deriving DecidableEq, Repr, Inhabited

/-- The admitted values of `P_LO`, a "mostly-0 byte pattern" `1^b 0^(8-b)` with `b` in 1, 2, 3 (R8). -/
inductive LoPattern where
  | ones1   -- 0x80
  | ones2   -- 0xC0
  | ones3   -- 0xE0
  deriving DecidableEq, Repr, Inhabited

/-- The byte of a high pattern (R8). -/
def HiPattern.byte : HiPattern → Byte
  | .ones5 => 0xF8
  | .ones6 => 0xFC
  | .ones7 => 0xFE

/-- The byte of a low pattern (R8). -/
def LoPattern.byte : LoPattern → Byte
  | .ones1 => 0x80
  | .ones2 => 0xC0
  | .ones3 => 0xE0

/-- The pull-resistor state of a pin request: `NONE`, `UP` or `DOWN` (R6, R30). The spec's `n/a` is `Option.none`. -/
inductive Pull where
  | noPull
  | up
  | down
  deriving DecidableEq, Repr, Inhabited

/-- A parameter set (R6). The pattern and pull types hold legal values only; `Params.legal` checks the rest (R8). -/
structure Params where
  /-- `N_LEDS`, the number of LEDs in the strip. -/
  nLeds : Nat
  /-- `RESET_LEN`, the byte count of the trailing zero region. -/
  resetLen : Nat
  /-- `TIMEOUT`, the fixed transfer timeout passed to the transmit primitive. -/
  timeout : Nat
  /-- `TIMEOUT_UNIT`, OPEN: a tag that no rule reads (93 U10). -/
  timeoutUnit : Nat
  /-- `P_HI`, OPEN. -/
  pHi : HiPattern
  /-- `P_LO`, OPEN. -/
  pLo : LoPattern
  /-- `PIN_PULL`, OPEN. -/
  pinPull : Pull
  deriving DecidableEq, Repr

/-- `LED_LEN = 24 * N_LEDS` (R7). -/
def Params.ledLen (p : Params) : Nat := 24 * p.nLeds

/-- `FB_LEN = 24 * N_LEDS + RESET_LEN` (R7). -/
def Params.fbLen (p : Params) : Nat := 24 * p.nLeds + p.resetLen

/-- What the platform draws for one request (spec/41_bus_lifecycle.md R140). -/
structure Draw where
  /-- For how many further steps the answer stays out; a finite number, which is the platform's duty. -/
  wait : Nat
  /-- Whether the bus is ever granted; only `Env.Acquire()` reads it (a liberty: it may wait for ever). -/
  granted : Bool
  /-- Whether the transfer succeeds; only `Env.Transmit` reads it (a liberty). -/
  ok : Bool
  deriving DecidableEq, Repr, Inhabited

namespace Config

/-- FREE VALUE. The OPEN parameter `P_HI` of the block that comes out of reset (R6, 93 U9). -/
opaque pHi : HiPattern

/-- FREE VALUE. The OPEN parameter `P_LO` of the block that comes out of reset (R6, 93 U9). -/
opaque pLo : LoPattern

/-- FREE VALUE. The OPEN parameter `PIN_PULL` of the block that comes out of reset (R6, 93 U11). -/
opaque pinPull : Pull

/-- FREE VALUE. The OPEN parameter `TIMEOUT_UNIT` (R6, 93 U10). -/
opaque timeoutUnit : Nat

/-- FREE VALUE. The platform's draw for a request that no script fixes (R140, 93 U7, U8). -/
opaque freeDraw : Nat → Draw

/-- FREE VALUE. What the status port shows beside `BUSY` while `BUSY = 1` (spec/10_state.md R24, 93 U5), at the two numbers of a busy
moment (DESIGN CHOICE, log 9). -/
opaque freeStatus : Nat → Nat → Word32

/-- FREE VALUE. What the read port shows while `BUSY = 1` (spec/20_memory.md R56, 93 U6), at the two numbers of a busy moment and the
address (DESIGN CHOICE, log 9). -/
opaque freeRdData : Nat → Nat → Word32 → Byte

/-- The default parameter set (R6): 20 LEDs, 60 reset bytes, timeout 500; the OPEN parameters stay open. -/
def params : Params where
  nLeds := 20
  resetLen := 60
  timeout := 500
  timeoutUnit := timeoutUnit
  pHi := pHi
  pLo := pLo
  pinPull := pinPull

end Config
end Sys2Proof
end

