-- ==== Sys2Proof/Syntax.lean ====
section
/-! DEFINITION. The commands of the block, one constructor per row of spec/opcode_table.json (spec/30_encoding.md R72), and the
lines of its assembler (R76 to R78). -/

namespace Sys2Proof

/-- The five commands (R72), with the operands of R71 at their own widths (R9, R70). -/
inductive Instr where
  | init
  | deinit
  | setPixel (idx : Word32) (r g b : Byte)
  | setAll (r g b : Byte)
  | send
  deriving DecidableEq, Repr

/-- A line of a host-side program (R76), operands as the unsigned integers the host wrote, and `.word64` (R78). -/
inductive AsmLine where
  | init
  | deinit
  | setPixel (index r g b : Nat)
  | setAll (r g b : Nat)
  | send
  | word64 (value : Nat)
  deriving DecidableEq, Repr

end Sys2Proof
end

