-- ==== Sys2Proof/WellFormed.lean ====
section
/-! DEFINITION. What is well formed: an assembler line (spec/30_encoding.md R76) and a parameter set (spec/00_scope.md R8).
Every `Instr` is well formed: its fields have the widths of R70 by type. -/

namespace Sys2Proof

/-- "An assembler refuses an operand outside its field and does not wrap it" (R76); `.word64` takes a 64-bit value (R78). -/
def AsmLine.wellFormed : AsmLine → Bool
  | .init => true
  | .deinit => true
  | .setPixel i r g b => decide (i < 2 ^ 32) && decide (r < 256) && decide (g < 256) && decide (b < 256)
  | .setAll r g b => decide (r < 256) && decide (g < 256) && decide (b < 256)
  | .send => true
  | .word64 v => decide (v < 2 ^ 64)

/-- The constraints of R8 that the types of `Params` do not carry: `N_LEDS >= 1` and `FB_LEN <= 2^32`. -/
def Params.legal (p : Params) : Bool :=
  decide (1 ≤ p.nLeds) && decide (p.fbLen ≤ 2 ^ 32)

/-- A parameter set as an integrator may propose it, the two patterns as plain bytes (R6). -/
structure RawParams where
  nLeds : Nat
  resetLen : Nat
  timeout : Nat
  timeoutUnit : Nat
  pHi : Byte
  pLo : Byte
  pinPull : Pull
  deriving DecidableEq, Repr

/-- The high pattern a byte is, if R8 admits it. -/
def HiPattern.ofByte? (v : Byte) : Option HiPattern :=
  if v = 0xF8 then some .ones5 else if v = 0xFC then some .ones6 else if v = 0xFE then some .ones7 else none

/-- The low pattern a byte is, if R8 admits it. -/
def LoPattern.ofByte? (v : Byte) : Option LoPattern :=
  if v = 0x80 then some .ones1 else if v = 0xC0 then some .ones2 else if v = 0xE0 then some .ones3 else none

/-- R8: the parameter set a proposal is, refused (`none`) where it breaks a constraint. -/
def RawParams.check (q : RawParams) : Option Params :=
  match HiPattern.ofByte? q.pHi, LoPattern.ofByte? q.pLo with
  | some hi, some lo =>
    let p : Params := ⟨q.nLeds, q.resetLen, q.timeout, q.timeoutUnit, hi, lo, q.pinPull⟩
    if p.legal then some p else none
  | _, _ => none

end Sys2Proof
end

