-- ==== Sys2Proof/Decode.lean ====
section
/-! DEFINITION. Decoding and encoding of command words (spec/30_encoding.md R70 to R75), the opcode table, and the assembler's
translation of a line into a word (R77, R78). -/

namespace Sys2Proof

/-- `OP = CMD[7:0]` (R71). -/
def opField (w : Cmd) : Byte := w.extractLsb' 0 8
/-- `R = CMD[15:8]` (R71). -/
def rField (w : Cmd) : Byte := w.extractLsb' 8 8
/-- `G = CMD[23:16]` (R71). -/
def gField (w : Cmd) : Byte := w.extractLsb' 16 8
/-- `B = CMD[31:24]` (R71). -/
def bField (w : Cmd) : Byte := w.extractLsb' 24 8
/-- `IDX = CMD[63:32]` (R71). -/
def idxField (w : Cmd) : Word32 := w.extractLsb' 32 32
/-- `CMD[63:8]`, which must be zero in a command without operands (R72). -/
def operandField (w : Cmd) : BitVec 56 := w.extractLsb' 8 56

/-- Why a word is `ILLEGAL` (R74). -/
inductive Illegal where
  /-- Opcode `0x00`, or `0x06` to `0xFF`. -/
  | reservedOpcode
  /-- A nonzero value in a must-be-zero field of R72. -/
  | nonzeroField
  deriving DecidableEq, Repr

/-- R73: every 64-bit word decodes to one of the five commands or is illegal; decoding reads no state. -/
def decode (w : Cmd) : Except Illegal Instr :=
  if opField w = 0x01 then
    if operandField w = 0 then .ok .init else .error .nonzeroField
  else if opField w = 0x02 then
    if operandField w = 0 then .ok .deinit else .error .nonzeroField
  else if opField w = 0x03 then
    .ok (.setPixel (idxField w) (rField w) (gField w) (bField w))
  else if opField w = 0x04 then
    if idxField w = 0 then .ok (.setAll (rField w) (gField w) (bField w)) else .error .nonzeroField
  else if opField w = 0x05 then
    if operandField w = 0 then .ok .send else .error .nonzeroField
  else .error .reservedOpcode

/-- The single format `CMD64` (R70): the fields of a word, most significant first. -/
def cmd64 (idx : Word32) (b g r op : Byte) : Cmd := idx ++ b ++ g ++ r ++ op

/-- The word of a command, from the table of R72. -/
def encode : Instr → Cmd
  | .init => cmd64 0 0 0 0 0x01
  | .deinit => cmd64 0 0 0 0 0x02
  | .setPixel idx r g b => cmd64 idx b g r 0x03
  | .setAll r g b => cmd64 0 b g r 0x04
  | .send => cmd64 0 0 0 0 0x05

/-- The mnemonics of spec/opcode_table.json. -/
inductive Mnemonic where
  | INIT | DEINIT | SET_PIXEL | SET_ALL | SEND
  deriving DecidableEq, Repr

/-- The table row a command stands for. -/
def Instr.mnemonic : Instr → Mnemonic
  | .init => .INIT
  | .deinit => .DEINIT
  | .setPixel _ _ _ _ => .SET_PIXEL
  | .setAll _ _ _ => .SET_ALL
  | .send => .SEND

/-- One row of spec/opcode_table.json: the fixed bits (`mask`) and their values (`pattern`, the table's "match"). -/
structure TableRow where
  name : Mnemonic
  pattern : Cmd
  mask : Cmd
  deriving DecidableEq, Repr

/-- spec/opcode_table.json, row by row. -/
def opcodeTable : List TableRow :=
  [⟨.INIT, 0x0000000000000001, 0xFFFFFFFFFFFFFFFF⟩,
   ⟨.DEINIT, 0x0000000000000002, 0xFFFFFFFFFFFFFFFF⟩,
   ⟨.SET_PIXEL, 0x0000000000000003, 0x00000000000000FF⟩,
   ⟨.SET_ALL, 0x0000000000000004, 0xFFFFFFFF000000FF⟩,
   ⟨.SEND, 0x0000000000000005, 0xFFFFFFFFFFFFFFFF⟩]

/-- Whether a word has the fixed bits of a row. -/
def TableRow.admits (row : TableRow) (w : Cmd) : Bool := w &&& row.mask == row.pattern

/-- The word a table row's bits stand for: `nbits` bits, the bits of the 64-bit command above them zero (R75: a command is
exactly 64 bits, so a longer word is refused). -/
def tableWord (nbits w : Nat) : Cmd := BitVec.ofNat 64 (w % 2 ^ nbits)

/-- The host's view of the decoder: bit 0 of `w` is bit 0 of `CMD`. -/
def decodeTableWord (nbits w : Nat) : Option Instr :=
  if nbits ≤ 64 then
    match decode (tableWord nbits w) with
    | .ok i => some i
    | .error _ => none
  else none

/-- R77: assembly of a line into a command word, by shifts of the operands; a line with an operand outside its field is
refused (R76), `.word64` gives its value (R78). -/
def AsmLine.assemble (l : AsmLine) : Option Cmd :=
  if l.wellFormed then
    some (BitVec.ofNat 64
      (match l with
        | .init => 0x0000000000000001
        | .deinit => 0x0000000000000002
        | .setPixel i r g b => (i <<< 32) ||| (b <<< 24) ||| (g <<< 16) ||| (r <<< 8) ||| 0x03
        | .setAll r g b => (b <<< 24) ||| (g <<< 16) ||| (r <<< 8) ||| 0x04
        | .send => 0x0000000000000005
        | .word64 v => v))
  else none

/-- The command a line names; `.word64` names none (R78). -/
def AsmLine.instr? : AsmLine → Option Instr
  | .init => some .init
  | .deinit => some .deinit
  | .setPixel i r g b => some (.setPixel (BitVec.ofNat 32 i) (BitVec.ofNat 8 r) (BitVec.ofNat 8 g) (BitVec.ofNat 8 b))
  | .setAll r g b => some (.setAll (BitVec.ofNat 8 r) (BitVec.ofNat 8 g) (BitVec.ofNat 8 b))
  | .send => some .send
  | .word64 _ => none

end Sys2Proof
end

