-- ==== Sys2Proof/Machine/State.lean ====
section
/-! DEFINITION. The block's state, exactly the list of spec/10_state.md R20, its parameters (R29) beside it, and the outside world's
inputs as plain data. -/

namespace Sys2Proof.Machine

/-- The lifecycle state `STATE` (R22). -/
inductive Lifecycle where
  | uninit
  | ready
  deriving DecidableEq, Repr

/-- The mode of the signal pin (R27): high-impedance/analog, or push-pull output. -/
inductive PinMode where
  | inert
  | ppOut
  deriving DecidableEq, Repr

/-- A logic level the block asks for: only `LOW` (R27). -/
inductive Level where
  | low
  deriving DecidableEq, Repr

/-- A drive speed the block asks for: only `MAX` (R30). -/
inductive Speed where
  | max
  deriving DecidableEq, Repr

/-- The result codes 0 to 4 of R25; codes 5 to 7 are "never written" and cannot be written down here (93 U12). -/
inductive ResultCode where
  | ok
  | indexOutOfRange
  | transferFailed
  | preconditionViolated
  | illegalCommand
  deriving DecidableEq, Repr

/-- A request to the platform with its arguments (R30, R34); `none` for a pull or a speed is the spec's `n/a`. -/
inductive Request where
  | acquire
  | release
  | pinCfg (mode : PinMode) (pull : Option Pull) (speed : Option Speed)
  | pinWrite (level : Level)
  | transmit (bytes : List Byte) (len : Nat) (timeout : Nat)
  deriving DecidableEq, Repr

/-- A platform answer (spec/00_scope.md R13). -/
inductive Answer where
  | done
  | ok
  | fail
  deriving DecidableEq, Repr

/-- One event of the request trace: a request and the answer it got (R30). -/
structure Event where
  req : Request
  ans : Answer
  deriving DecidableEq, Repr

/-- A request whose answer has not come (R35), and the platform's draw for it. -/
structure Outstanding where
  req : Request
  draw : Draw
  deriving DecidableEq, Repr

/-- The values of `PENDING` other than `NONE` (R35). -/
inductive RequestKind where
  | ACQUIRE | RELEASE | PINCFG | PINWRITE | TRANSMIT
  deriving DecidableEq, Repr

/-- The kind of a request (R35). -/
def Request.kind : Request → RequestKind
  | .acquire => .ACQUIRE
  | .release => .RELEASE
  | .pinCfg _ _ _ => .PINCFG
  | .pinWrite _ => .PINWRITE
  | .transmit _ _ _ => .TRANSMIT

/-- Frame-buffer contents: (offset, byte) pairs, offsets strictly rising, no byte equal to what an unlisted offset reads as. -/
abbrev Memory := List Host.Cell

/-- The whole machine: parameters, the state of R20, and the outside world. Plain data. -/
structure State where
  /-- The parameter set (R6, R29): configuration; no step writes it. -/
  cfg : Params
  /-- `FB`, the frame buffer (R21). -/
  fb : Memory
  /-- `STATE` (R22). -/
  lifecycle : Lifecycle
  /-- `BUSY` (R23). -/
  busy : Bool
  /-- `RESULT` (R25). -/
  result : ResultCode
  /-- `ST_IDX` (R25). -/
  stIdx : Bool
  /-- `ST_XFER` (R25). -/
  stXfer : Bool
  /-- `ST_PRE` (R25). -/
  stPre : Bool
  /-- `ST_ILL` (R25). -/
  stIll : Bool
  /-- `BUS_OWNED` (R26). -/
  busOwned : Bool
  /-- `PIN_MODE` (R27). -/
  pinMode : PinMode
  /-- `TRACE`, oldest event first (R30). -/
  trace : List Event
  /-- `PENDING` (R35): `none` is `NONE`. -/
  pending : Option Outstanding
  /-- The MODEL's own: the word of an accepted command until the command runs; it is "used while that command runs and then dropped"
  (R31). -/
  cmd : Option Cmd
  /-- The MODEL's own: the commands the host still offers, the one on the command port first (R32, R33, R193). -/
  program : List Cmd
  /-- The MODEL's own: the host asks for a reset (R191). -/
  rst : Bool
  /-- The MODEL's own: the platform's draws for the coming requests; past its end they are free (R140). -/
  script : List Draw
  /-- The MODEL's own: the counter that free values are taken at, the ports' at the length of `program` too (log 9). -/
  draws : Nat
  deriving DecidableEq, Repr

/-- Why the machine stops. No state that a legal block can reach raises one (Safety.lean's `State.Inv` rules both out). -/
inductive Fault where
  /-- A store to an offset at or past `FB_LEN`, which does not exist (R50). Raised by `State.storeSlot`'s callers. Safe. -/
  | outsideFrameBuffer
  /-- `BUSY = 1` without a command in progress, or `BUSY = 0` with one, which R23 excludes; or an accepted command that has not run beside
  a pending request, which R61 excludes. Raised by `step`. Safe. -/
  | handshakeBroken
  deriving DecidableEq, Repr

/-- Why a step has no meaning. -/
inductive Refusal where
  /-- An instruction without a meaning yet. No arm of `exec` raises it. Safe. -/
  | notModelled (mnemonic : String)
  /-- The parameter set breaks R8: "A model ... must refuse any set that breaks one of these constraints". Raised by `step`.
  Safe. -/
  | illegalParameters
  deriving DecidableEq, Repr

/-- R20's reset values, R190, for a block with parameters `p`; the outside world offers nothing. -/
def State.resetWith (p : Params) : State where
  cfg := p
  fb := []
  lifecycle := .uninit
  busy := false
  result := .ok
  stIdx := false
  stXfer := false
  stPre := false
  stIll := false
  busOwned := false
  pinMode := .inert
  trace := []
  pending := none
  cmd := none
  program := []
  rst := false
  script := []
  draws := 0

/-- The block right after reset (R190), with the default parameters (R6). -/
def State.reset : State := State.resetWith Config.params

end Sys2Proof.Machine
end

