-- ==== Sys2Proof/Machine/Flags.lean ====
section
/-! DEFINITION. The status fields: sticky bits (spec/10_state.md R25), the status word and the ports that show it (R24, R33). -/

namespace Sys2Proof.Machine

/-- The number of a result code (R25). -/
def ResultCode.code : ResultCode → BitVec 3
  | .ok => 0
  | .indexOutOfRange => 1
  | .transferFailed => 2
  | .preconditionViolated => 3
  | .illegalCommand => 4

/-- R25: sets the sticky bit of a code; `OK` has none. -/
def State.markSticky (s : State) : ResultCode → State
  | .ok => s
  | .indexOutOfRange => { s with stIdx := true }
  | .transferFailed => { s with stXfer := true }
  | .preconditionViolated => { s with stPre := true }
  | .illegalCommand => { s with stIll := true }

/-- Whether the sticky bit of a code is set; `OK` has none to set. -/
def State.sticky (s : State) : ResultCode → Bool
  | .ok => true
  | .indexOutOfRange => s.stIdx
  | .transferFailed => s.stXfer
  | .preconditionViolated => s.stPre
  | .illegalCommand => s.stIll

/-- The bit of `STATE` in the status word (R22, R24). -/
def Lifecycle.bit : Lifecycle → BitVec 1
  | .uninit => 0
  | .ready => 1

/-- The bit of `PIN_MODE` in the status word (R24, R27). -/
def PinMode.bit : PinMode → BitVec 1
  | .inert => 0
  | .ppOut => 1

/-- The fields of `STATUS` at their places (R24), bits 31:11 zero. -/
def State.statusWord (s : State) : Word32 :=
  (0 : BitVec 21) ++ s.pinMode.bit ++ BitVec.ofBool s.busOwned ++ BitVec.ofBool s.stIll ++ BitVec.ofBool s.stPre ++
    BitVec.ofBool s.stXfer ++ BitVec.ofBool s.stIdx ++ s.result.code ++ BitVec.ofBool s.busy ++ s.lifecycle.bit

/-- R24, R194: what the host reads on the status port; while `BUSY = 1`, bit 1 is 1 and every other bit is a free value. DESIGN CHOICE
(log 9): the free value is taken at `draws` and the number of commands still offered, which no two busy states between the steps of one
run share (Laws/Step.lean's `step_moment`); so it can differ from busy state to busy state, and two reads in one state give one value. -/
def State.statusPort (s : State) : Word32 :=
  if s.busy then Config.freeStatus s.draws s.program.length ||| 0x00000002 else s.statusWord

/-- `CMD_READY = NOT BUSY` (R33). -/
def State.cmdReady (s : State) : Bool := !s.busy

/-- `CMD_VALID`: the host offers a command (R33). -/
def State.cmdValid (s : State) : Bool := !s.program.isEmpty

/-- `PENDING` as the spec names its values (R35). -/
def State.pendingKind (s : State) : Option RequestKind := s.pending.map fun o => o.req.kind

end Sys2Proof.Machine
end

