-- ==== Sys2Proof/Machine/Operands.lean ====
section
/-! DEFINITION. Operand forms: the bit-timing encoder (spec/40_pixel_write.md R100 to R102), the addresses of the frame buffer
(spec/20_memory.md R50 to R52) and the order of bits on the wire (R53). -/

namespace Sys2Proof.Machine

/-- R100: the wire byte of one colour bit. -/
def encodeBit (p : Params) (x : Bool) : Byte := if x then p.pHi.byte else p.pLo.byte

/-- R101: the eight wire bytes of one channel value, most significant bit first. -/
def encodeByte (p : Params) (v : Byte) : List Byte :=
  [encodeBit p (v.getLsbD 7), encodeBit p (v.getLsbD 6), encodeBit p (v.getLsbD 5), encodeBit p (v.getLsbD 4),
   encodeBit p (v.getLsbD 3), encodeBit p (v.getLsbD 2), encodeBit p (v.getLsbD 1), encodeBit p (v.getLsbD 0)]

/-- R102: the 24 wire bytes of one colour, in the order green, red, blue. -/
def encodePixel (p : Params) (r g b : Byte) : List Byte :=
  encodeByte p g ++ encodeByte p r ++ encodeByte p b

/-- The colour channels in wire order (R51). -/
inductive Channel where
  | green
  | red
  | blue
  deriving DecidableEq, Repr

/-- The channel number `c` of R51. -/
def Channel.number : Channel → Nat
  | .green => 0
  | .red => 1
  | .blue => 2

/-- The first offset of slot `i`: "index × 24" (R50, R104). -/
def slotBase (i : Nat) : Nat := 24 * i

/-- R51: the offset of the byte for bit `n` of channel `c` of LED `i`. -/
def bitOffset (i : Nat) (c : Channel) (n : Nat) : Nat := slotBase i + 8 * c.number + (7 - n)

/-- What stands at an offset (R50, R52). -/
inductive Place where
  | led (i : Nat) (c : Channel) (bit : Nat)
  | resetRegion
  | outside
  deriving DecidableEq, Repr

/-- R52: an offset read back. -/
def locate (p : Params) (a : Nat) : Place :=
  if a < p.ledLen then
    .led (a / 24) (if a % 24 / 8 = 0 then .green else if a % 24 / 8 = 1 then .red else .blue) (7 - a % 8)
  else if a < p.fbLen then .resetRegion
  else .outside

/-- R53: the bits of a byte in the order the transmitter sends them, bit 7 first. -/
def byteBits (v : Byte) : List Bool :=
  [v.getLsbD 7, v.getLsbD 6, v.getLsbD 5, v.getLsbD 4, v.getLsbD 3, v.getLsbD 2, v.getLsbD 1, v.getLsbD 0]

/-- R53: the bits of a byte sequence in the order the transmitter sends them. -/
def wireBits (bytes : List Byte) : List Bool := bytes.flatMap byteBits

end Sys2Proof.Machine
end

