-- ==== Sys2Proof/Machine/Ops.lean ====
section
/-! DEFINITION. The shared operations: frame-buffer access (spec/20_memory.md), how a command ends (spec/00_scope.md R12), and
requests to the platform (R13, spec/41_bus_lifecycle.md R140). -/

namespace Sys2Proof

/-- Whether the answer to a request is there (R140): the wait is over and, for `Env.Acquire()`, the bus is granted. -/
def Draw.answers (d : Draw) (r : Machine.Request) : Bool :=
  match r with
  | .acquire => decide (d.wait = 0) && d.granted
  | .release => decide (d.wait = 0)
  | .pinCfg _ _ _ => decide (d.wait = 0)
  | .pinWrite _ => decide (d.wait = 0)
  | .transmit _ _ _ => decide (d.wait = 0)

/-- The answer to a request (R13): `ok` or `fail` to `Env.Transmit`, `done` to the others. -/
def Draw.answer (d : Draw) (r : Machine.Request) : Machine.Answer :=
  match r with
  | .acquire => .done
  | .release => .done
  | .pinCfg _ _ _ => .done
  | .pinWrite _ => .done
  | .transmit _ _ _ => if d.ok then .ok else .fail

/-- One step of waiting has gone by. -/
def Draw.tick (d : Draw) : Draw := { d with wait := d.wait - 1 }

end Sys2Proof

namespace Sys2Proof.Machine

/-- What an unlisted offset reads as: `0x00`, the reset contents of every byte of `FB` (R21, R190). -/
def Memory.unlisted : Byte := 0x00

/-- The canonical form: offsets strictly rising, no entry equal to what an unlisted offset reads as. -/
def Memory.wf (m : Memory) : Bool :=
  decide (List.Pairwise (fun c d => c.1 < d.1) m) && m.all fun c => c.2 != Memory.unlisted

/-- The byte at an offset. -/
def Memory.read : Memory → Nat → Byte
  | [], _ => Memory.unlisted
  | c :: m, a => if c.1 = a then c.2 else Memory.read m a

/-- An entry for a byte, none where the byte is what an unlisted offset reads as. -/
def Memory.entry (a : Nat) (v : Byte) : Memory := if v = Memory.unlisted then [] else [(a, v)]

/-- `FB[a] <- v` on the list, keeping its canonical form. -/
def Memory.write : Memory → Nat → Byte → Memory
  | [], a, v => Memory.entry a v
  | c :: m, a, v =>
    if a < c.1 then Memory.entry a v ++ c :: m
    else if a = c.1 then Memory.entry a v ++ m
    else c :: Memory.write m a v

/-- The bytes `ws` written at `base`, `base + 1`, ... -/
def Memory.writeBytes : Memory → Nat → List Byte → Memory
  | m, _, [] => m
  | m, base, v :: ws => Memory.writeBytes (Memory.write m base v) (base + 1) ws

/-- `STATE <- l` (R11, R22). -/
def State.setLifecycle (s : State) (l : Lifecycle) : State := { s with lifecycle := l }

/-- `BUS_OWNED <- b` (R11, R26). -/
def State.setBusOwned (s : State) (b : Bool) : State := { s with busOwned := b }

/-- `PIN_MODE <- m` (R11, R27). -/
def State.setPinMode (s : State) (m : PinMode) : State := { s with pinMode := m }

/-- The frame buffer's contents replaced (R11). -/
def State.setFb (s : State) (m : Memory) : State := { s with fb := m }

/-- A request is left waiting for its answer (R35). -/
def State.setPending (s : State) (o : Outstanding) : State := { s with pending := some o }

/-- The counter of the free values moves on. -/
def State.advance (s : State) : State := { s with draws := s.draws + 1 }

/-- `FB[a]` (R11). -/
def State.fbByte (s : State) (a : Nat) : Byte := s.fb.read a

/-- R104's loop over one slot: `w` written from the slot's base on. `none` where the slot is not inside `FB` (R50). -/
def State.storeSlot (s : State) (i : Nat) (w : List Byte) : Option State :=
  if slotBase i + w.length ≤ s.cfg.fbLen then some (s.setFb (s.fb.writeBytes (slotBase i) w)) else none

/-- R107's loop over slots `0 .. n - 1`, in that order. -/
def State.storeSlots (s : State) (w : List Byte) : Nat → Option State
  | 0 => some s
  | n + 1 => (s.storeSlots w n).bind fun s' => s'.storeSlot n w

/-- R56, R194: what the read port shows for an address; while `BUSY = 1` a free value. DESIGN CHOICE (log 9): it is taken at `draws`, the
number of commands still offered and the address, as `State.statusPort` takes its own; two reads of one address in one state give one
value. -/
def State.rdData (s : State) (addr : Word32) : Byte :=
  if s.busy then Config.freeRdData s.draws s.program.length addr
  else if addr.toNat < s.cfg.fbLen then s.fb.read addr.toNat
  else 0x00

/-- The bytes a `SEND` hands over: `FB[0], FB[1], ..., FB[FB_LEN - 1]` (R53, R59). -/
def State.frame (s : State) : List Byte := (List.range s.cfg.fbLen).map s.fb.read

/-- `raise <Code>` (R12): the command ends with `code`, its sticky bit set, nothing else changed. Results are not traps (R165). -/
def State.raise (s : State) (code : ResultCode) : State :=
  { s.markSticky code with result := code, busy := false }

/-- `complete OK` (R12): the command ends with `RESULT = OK`; the sticky bits stay (R25). -/
def State.complete (s : State) : State := { s with result := .ok, busy := false }

/-- The platform's draw for the `k`-th request from now. -/
def State.draw (s : State) (k : Nat) : Draw :=
  match s.script[k]? with
  | some d => d
  | none => Config.freeDraw (s.draws + k)

/-- The draw for the next request is used up. -/
def State.takeDraw (s : State) : State := { s with script := s.script.drop 1, draws := s.draws + 1 }

/-- The answer to a request has come: the event goes into `TRACE`, nothing is pending (R13, R30, R35). -/
def State.record (s : State) (r : Request) (a : Answer) : State :=
  { s with trace := s.trace ++ [⟨r, a⟩], pending := none }

/-- R13: sends a request and waits for its answer. Where the answer is there at once, the command goes on with `next`; else the
request is `PENDING` and the block waits (R35). -/
def State.request (s : State) (r : Request) (next : State → Answer → State) : State :=
  if (s.draw 0).answers r then
    next (s.takeDraw.record r ((s.draw 0).answer r)) ((s.draw 0).answer r)
  else s.takeDraw.setPending ⟨r, s.draw 0⟩

/-- A reset of the block (R190, R191): every element of R20 at its reset value, nothing sent to the platform; the parameters and
the outside world stay, and the reset input is used up. -/
def State.resetBlock (s : State) : State :=
  { State.resetWith s.cfg with program := s.program, script := s.script, draws := s.draws }

/-- The block accepts the word `w` on the port (R23, R33): `BUSY <- 1`; the host goes on to its next command. One command fewer is offered,
so what the two ports show while this command runs is a free value of its own (R194; DESIGN CHOICE, log 9). -/
def State.accept (s : State) (w : Cmd) (rest : List Cmd) : State := { s with program := rest, busy := true, cmd := some w }

/-- The accepted word is handed to the decoder and dropped (R31, R73). -/
def State.dropCmd (s : State) : State := { s with cmd := none }

/-- What an event put on the wire, where `cut` bytes went out if the transfer failed (R139, R140, 93 U4). -/
def Event.wire (e : Event) (cut : Nat) : List Byte :=
  match e.req, e.ans with
  | .transmit bytes _ _, .ok => bytes
  | .transmit bytes _ _, .fail => bytes.take cut
  | .transmit _ _ _, .done => []
  | .acquire, _ => []
  | .release, _ => []
  | .pinCfg _ _ _, _ => []
  | .pinWrite _, _ => []

end Sys2Proof.Machine
end

