-- ==== Sys2Proof/Machine/Bus.lean ====
section
/-! DEFINITION. The bus commands (spec/41_bus_lifecycle.md R131, R134, R137), each cut where it waits for the platform, and how a
waiting command goes on. -/

namespace Sys2Proof.Machine

/-- `INIT` after `Env.PinWrite(LOW)`: `STATE <- READY; complete OK` (R131). -/
def afterInitLow (s : State) (_ : Answer) : State := (s.setLifecycle .ready).complete

/-- `INIT` after `Env.PinConfig`: `PIN_MODE <- PP_OUT; Env.PinWrite(LOW)` (R131). -/
def afterInitConfig (s : State) (_ : Answer) : State :=
  (s.setPinMode .ppOut).request (.pinWrite .low) afterInitLow

/-- `INIT` after `Env.Acquire()`: `BUS_OWNED <- 1; Env.PinConfig(PP_OUT, PIN_PULL, MAX)` (R131). -/
def afterAcquire (s : State) (_ : Answer) : State :=
  (s.setBusOwned true).request (.pinCfg .ppOut (some s.cfg.pinPull) (some .max)) afterInitConfig

/-- R131: `INIT` takes the bus and sets up the signal pin. -/
def execInit (s : State) : Host.Outcome State Fault Refusal :=
  if s.lifecycle ≠ .uninit then .next (s.raise .preconditionViolated)
  else .next (s.request .acquire afterAcquire)

/-- `DEINIT` after `Env.PinConfig`: `PIN_MODE <- INERT; STATE <- UNINIT; complete OK` (R134). -/
def afterInert (s : State) (_ : Answer) : State := ((s.setPinMode .inert).setLifecycle .uninit).complete

/-- `DEINIT` after `Env.PinWrite(LOW)`: `Env.PinConfig(INERT, n/a, n/a)` (R134). -/
def afterDeinitLow (s : State) (_ : Answer) : State := s.request (.pinCfg .inert none none) afterInert

/-- `DEINIT` after `Env.Release()`: `BUS_OWNED <- 0; Env.PinWrite(LOW)` (R134). -/
def afterRelease (s : State) (_ : Answer) : State :=
  (s.setBusOwned false).request (.pinWrite .low) afterDeinitLow

/-- R134: `DEINIT` gives the bus back and leaves the pin inert. -/
def execDeinit (s : State) : Host.Outcome State Fault Refusal :=
  if s.lifecycle ≠ .ready then .next (s.raise .preconditionViolated)
  else .next (s.request .release afterRelease)

/-- `SEND` after `Env.Transmit`: `complete OK` or `raise TRANSFER_FAILED` (R137). -/
def afterTransmit (s : State) (a : Answer) : State :=
  if a = .ok then s.complete else s.raise .transferFailed

/-- R137: `SEND` transmits the whole frame buffer once. -/
def execSend (s : State) : Host.Outcome State Fault Refusal :=
  if s.lifecycle ≠ .ready then .next (s.raise .preconditionViolated)
  else .next (s.request (.transmit s.frame s.cfg.fbLen s.cfg.timeout) afterTransmit)

/-- How the command that sent a request goes on when its answer comes. The request and `STATE` say which command it is: `INIT` runs
while `STATE = UNINIT`, `DEINIT` while `STATE = READY` (R131, R134). -/
def resume (s : State) (r : Request) (a : Answer) : State :=
  match r with
  | .acquire => afterAcquire s a
  | .release => afterRelease s a
  | .pinCfg .ppOut _ _ => afterInitConfig s a
  | .pinCfg .inert _ _ => afterInert s a
  | .pinWrite _ => if s.lifecycle = .uninit then afterInitLow s a else afterDeinitLow s a
  | .transmit _ _ _ => afterTransmit s a

/-- A block that waits for the platform (R35, R140): one more step of waiting, after which the answer is there or not. -/
def State.await (s : State) (o : Outstanding) : State :=
  if o.draw.tick.answers o.req then
    resume (s.record o.req (o.draw.answer o.req)) o.req (o.draw.answer o.req)
  else (s.setPending ⟨o.req, o.draw.tick⟩).advance

end Sys2Proof.Machine
end

