-- ==== Sys2Proof/Machine/Pixel.lean ====
section
/-! DEFINITION. The pixel commands (spec/40_pixel_write.md R104, R107). -/

namespace Sys2Proof.Machine

/-- R104: `SET_PIXEL` writes one LED's slot; first the lifecycle check, then the index check (R167). -/
def execSetPixel (idx : Word32) (r g b : Byte) (s : State) : Host.Outcome State Fault Refusal :=
  if s.lifecycle ≠ .ready then .next (s.raise .preconditionViolated)
  else if s.cfg.nLeds ≤ idx.toNat then .next (s.raise .indexOutOfRange)
  else
    match s.storeSlot idx.toNat (encodePixel s.cfg r g b) with
    | some s' => .next s'.complete
    | none => .fault .outsideFrameBuffer

/-- R107: `SET_ALL` writes every LED's slot with one colour, never the reset region. -/
def execSetAll (r g b : Byte) (s : State) : Host.Outcome State Fault Refusal :=
  if s.lifecycle ≠ .ready then .next (s.raise .preconditionViolated)
  else
    match s.storeSlots (encodePixel s.cfg r g b) s.cfg.nLeds with
    | some s' => .next s'.complete
    | none => .fault .outsideFrameBuffer

end Sys2Proof.Machine
end

