-- ==== Sys2Proof/Machine/Dispatch.lean ====
section
/-! DEFINITION. The meaning of each command, one arm per constructor of Instr. -/

namespace Sys2Proof.Machine

def exec (i : Instr) (s : State) : Host.Outcome State Fault Refusal :=
  match i with
  | .init => Sys2Proof.Machine.execInit s
  | .deinit => Sys2Proof.Machine.execDeinit s
  | .setPixel idx r g b => Sys2Proof.Machine.execSetPixel idx r g b s
  | .setAll r g b => Sys2Proof.Machine.execSetAll r g b s
  | .send => Sys2Proof.Machine.execSend s

end Sys2Proof.Machine
end

