-- ==== Sys2Proof/Machine/Fetch.lean ====
section
/-! DEFINITION. From the command port to a meaning: accepting a word (spec/10_state.md R23, R33), running it
(spec/30_encoding.md R73, spec/60_exceptions.md R164), and one step of a block with legal parameters. -/

namespace Sys2Proof.Machine

/-- An accepted word is decoded and run; an illegal one ends `ILLEGAL_COMMAND` with no other effect (R73, R164). -/
def runWord (w : Cmd) (s : State) : Host.Outcome State Fault Refusal :=
  match decode w with
  | .ok i => exec i s
  | .error _ => .next (s.raise .illegalCommand)

/-- An idle block (R33, R61): it accepts the offered command, or stays as it is (R175). -/
def idleStep (s : State) : Host.Outcome State Fault Refusal :=
  match s.program with
  | [] => .next s
  | w :: rest => .next (s.accept w rest)

/-- One step of a legal block: a reset comes before everything (R191). A busy block runs the command it has accepted (R23), or waits for
the platform (R35); an idle one looks at its command port. -/
def blockStep (s : State) : Host.Outcome State Fault Refusal :=
  if s.rst then .next s.resetBlock
  else
    match s.busy, s.cmd, s.pending with
    | true, some w, none => runWord w s.dropCmd
    | true, none, some o => .next (s.await o)
    | false, none, none => idleStep s
    | true, none, none => .fault .handshakeBroken
    | true, some _, some _ => .fault .handshakeBroken
    | false, some _, none => .fault .handshakeBroken
    | false, none, some _ => .fault .handshakeBroken
    | false, some _, some _ => .fault .handshakeBroken

/-- The block with the word `w` just accepted, in place of any command in progress, and without a reset request. -/
def State.placeCmd (s : State) (w : Cmd) : State :=
  { s with cmd := some w, busy := true, pending := none, rst := false }

end Sys2Proof.Machine
end

