-- ==== Sys2Proof/Machine/Step.lean ====
section
/-! DEFINITION. One step of the machine. -/

namespace Sys2Proof.Machine

/-- One step: a block with parameters that break R8 is refused; any other does what `blockStep` says. -/
def step (s : State) : Host.Outcome State Fault Refusal :=
  if s.cfg.legal then blockStep s else .refused .illegalParameters

/-- The word of a table row accepted by the block (R33), so that the very next step runs it. -/
def State.withFetchWord (s : State) (nbits w : Nat) : State := s.placeCmd (tableWord nbits w)

end Sys2Proof.Machine
end

