-- ==== Sys2Proof/Machine/Assembler.lean ====
section
/-! DEFINITION. The text of an assembler line (spec/30_encoding.md R76, R78), read as a list of characters. -/

namespace Sys2Proof.Machine

/-- A token of a line: a word without blanks or commas, or a comma. -/
inductive Token where
  | word (cs : List Char)
  | comma
  deriving DecidableEq, Repr

/-- The word read so far, given back as a token if there is one. -/
def flushWord (cur : List Char) : List Token := if cur.isEmpty then [] else [.word cur.reverse]

/-- The tokens of a line; blanks and commas end a word. `cur` is the word being read, last character first. -/
def tokensFrom : List Char → List Char → List Token
  | cur, [] => flushWord cur
  | cur, c :: cs =>
    if c = ' ' ∨ c = '\t' then flushWord cur ++ tokensFrom [] cs
    else if c = ',' then flushWord cur ++ .comma :: tokensFrom [] cs
    else tokensFrom (c :: cur) cs

/-- The value of a digit character in a base of at most 16. -/
def digitValue (base : Nat) (c : Char) : Option Nat :=
  let n := c.toNat
  let v? : Option Nat :=
    if 48 ≤ n ∧ n ≤ 57 then some (n - 48)
    else if 97 ≤ n ∧ n ≤ 102 then some (n - 87)
    else if 65 ≤ n ∧ n ≤ 70 then some (n - 55)
    else none
  v?.bind fun v => if v < base then some v else none

/-- The number that digits stand for, after a first part worth `acc`. -/
def digitsFrom (base : Nat) : Nat → List Char → Option Nat
  | acc, [] => some acc
  | acc, c :: cs => (digitValue base c).bind fun v => digitsFrom base (acc * base + v) cs

/-- R76: an unsigned integer, decimal or `0x` hexadecimal; at least one digit. -/
def parseNumber : List Char → Option Nat
  | [] => none
  | '0' :: 'x' :: cs => if cs.isEmpty then none else digitsFrom 16 0 cs
  | c :: cs => digitsFrom 10 0 (c :: cs)

/-- Numbers with a comma between each two. -/
def parseOperands : List Token → Option (List Nat)
  | [.word cs] => (parseNumber cs).map fun n => [n]
  | .word cs :: .comma :: ts =>
    (parseNumber cs).bind fun n => (parseOperands ts).map fun ns => n :: ns
  | _ => none

/-- The line with a mnemonic and operands, if there is one (R76, R78). -/
def lineOf (mnemonic : List Char) (operands : List Nat) : Option AsmLine :=
  if mnemonic = ['i', 'n', 'i', 't'] then
    match operands with | [] => some .init | _ => none
  else if mnemonic = ['d', 'e', 'i', 'n', 'i', 't'] then
    match operands with | [] => some .deinit | _ => none
  else if mnemonic = ['s', 'e', 't', '_', 'p', 'i', 'x', 'e', 'l'] then
    match operands with | [i, r, g, b] => some (.setPixel i r g b) | _ => none
  else if mnemonic = ['s', 'e', 't', '_', 'a', 'l', 'l'] then
    match operands with | [r, g, b] => some (.setAll r g b) | _ => none
  else if mnemonic = ['s', 'e', 'n', 'd'] then
    match operands with | [] => some .send | _ => none
  else if mnemonic = ['.', 'w', 'o', 'r', 'd', '6', '4'] then
    match operands with | [v] => some (.word64 v) | _ => none
  else none

/-- R76: the line a text stands for, refused where it is none. -/
def parseLine (text : List Char) : Option AsmLine :=
  match tokensFrom [] text with
  | [.word m] => lineOf m []
  | .word m :: ts => (parseOperands ts).bind fun ns => lineOf m ns
  | _ => none

/-- R76, R77: the command word of a line of text, refused where it is no line or an operand is outside its field. -/
def assembleText (text : List Char) : Option Cmd := (parseLine text).bind AsmLine.assemble

end Sys2Proof.Machine
end

