-- ==== Sys2Proof/Safety.lean ====
section
/-! DEFINITION. What counts as a safe run, in the terms the statements use: the invariant of the machine (spec/10_state.md R28 and
what it rests on), the lifecycle table (spec/41_bus_lifecycle.md R130), and runs. -/

namespace Sys2Proof.Machine

/-- `n` steps lead from `s` to `t`. -/
def Reaches : Nat → State → State → Prop
  | 0, s, t => s = t
  | n + 1, s, t => ∃ u, step s = .next u ∧ Reaches n u t

/-- The lifecycle state a command runs in (R130); in the other one it raises `PRECONDITION_VIOLATED` (R163). -/
def needs : Instr → Lifecycle
  | .init => .uninit
  | .deinit => .ready
  | .setPixel _ _ _ _ => .ready
  | .setAll _ _ _ => .ready
  | .send => .ready

/-- What a request means for the ownership of the bus (R26). -/
def ownedBy (owned : Bool) (e : Event) : Bool :=
  match e.req with
  | .acquire => true
  | .release => false
  | .pinCfg _ _ _ => owned
  | .pinWrite _ => owned
  | .transmit _ _ _ => owned

/-- Whether the bus is held after the events of a trace (R26). -/
def traceOwned (tr : List Event) : Bool := tr.foldl ownedBy false

/-- What a request means for the mode of the pin (R27). -/
def modeBy (mode : PinMode) (e : Event) : PinMode :=
  match e.req with
  | .pinCfg m _ _ => m
  | .acquire => mode
  | .release => mode
  | .pinWrite _ => mode
  | .transmit _ _ _ => mode

/-- The mode of the last pin request of a trace (R27). -/
def tracePinMode (tr : List Event) : PinMode := tr.foldl modeBy .inert

/-- The transmit requests of a trace. -/
def isTransmit (r : Request) : Bool :=
  match r with
  | .transmit _ _ _ => true
  | .acquire => false
  | .release => false
  | .pinCfg _ _ _ => false
  | .pinWrite _ => false

/-- A transmit request carries a whole frame of a block with parameters `p` (R137, R138): `FB_LEN` bytes, the last `RESET_LEN` of
them zero (R198). -/
def Request.wholeFrame (p : Params) : Request → Prop
  | .transmit bytes len timeout =>
    bytes.length = p.fbLen ∧ len = p.fbLen ∧ timeout = p.timeout ∧ bytes.drop p.ledLen = List.replicate p.resetLen 0
  | .acquire => True
  | .release => True
  | .pinCfg _ _ _ => True
  | .pinWrite _ => True

/-- R28: slot `i` was never written since reset, or holds the encoding of some colour. -/
def State.slotOk (s : State) (i : Nat) : Prop :=
  (∀ j < 24, s.fbByte (slotBase i + j) = 0) ∨
  ∃ r g b : Byte, ∀ j < 24, s.fbByte (slotBase i + j) = (encodePixel s.cfg r g b).getD j 0

/-- R28, first two lines: an idle block holds the bus and drives the pin exactly when it is `READY`. -/
def State.resting (s : State) : Prop :=
  match s.lifecycle with
  | .ready => s.busOwned = true ∧ s.pinMode = .ppOut
  | .uninit => s.busOwned = false ∧ s.pinMode = .inert

/-- Where a command waits, its earlier effects are there and its later ones are not (R131, R134, R137). -/
def State.stage (s : State) : Prop :=
  match s.pending with
  | none => s.resting
  | some o =>
    match o.req with
    | .acquire => s.lifecycle = .uninit ∧ s.busOwned = false ∧ s.pinMode = .inert
    | .release => s.lifecycle = .ready ∧ s.busOwned = true ∧ s.pinMode = .ppOut
    | .pinCfg .ppOut _ _ => s.lifecycle = .uninit ∧ s.busOwned = true ∧ s.pinMode = .inert
    | .pinCfg .inert _ _ => s.lifecycle = .ready ∧ s.busOwned = false ∧ s.pinMode = .ppOut
    | .pinWrite _ =>
      match s.lifecycle with
      | .uninit => s.busOwned = true ∧ s.pinMode = .ppOut
      | .ready => s.busOwned = false ∧ s.pinMode = .ppOut
    | .transmit _ _ _ => s.lifecycle = .ready ∧ s.busOwned = true ∧ s.pinMode = .ppOut

/-- The invariant of a block with legal parameters. -/
structure State.Inv (s : State) : Prop where
  /-- R8. -/
  legal : s.cfg.legal = true
  /-- The canonical form of `FB`. -/
  memory : s.fb.wf = true
  /-- R57: no byte of the reset region, or past `FB_LEN`, is listed. -/
  inLeds : ∀ c ∈ s.fb, c.1 < s.cfg.ledLen
  /-- R28. -/
  slots : ∀ i < s.cfg.nLeds, s.slotOk i
  /-- R23: `BUSY = 1` exactly while a command is in progress: accepted and not yet run, or waiting for the platform. With it,
  `PENDING = NONE` when `BUSY = 0` (R35). -/
  handshake : s.busy = (s.cmd.isSome || s.pending.isSome)
  /-- R61: an accepted command runs before the next is accepted, so a waiting block holds no other word. -/
  oneCommand : s.cmd = none ∨ s.pending = none
  /-- R28 and the middle of `INIT` and `DEINIT`. -/
  stage : s.stage
  /-- R25: the code of the last command has left its sticky bit. -/
  sticky : s.sticky s.result = true
  /-- R26: `BUS_OWNED` follows the trace. -/
  owned : s.busOwned = traceOwned s.trace
  /-- R27: `PIN_MODE` follows the trace. -/
  mode : s.pinMode = tracePinMode s.trace
  /-- R138: every transmit of the trace handed over a whole frame. -/
  frames : ∀ e ∈ s.trace, e.req.wholeFrame s.cfg
  /-- R138: a pending transmit hands over a whole frame. -/
  pendingFrame : ∀ o ∈ s.pending, o.req.wholeFrame s.cfg

/-- The block is idle and accepts commands (R23, R33): legal parameters, nothing in progress, no reset asked for. -/
def State.idle (s : State) : Prop :=
  s.cfg.legal = true ∧ s.busy = false ∧ s.pending = none ∧ s.cmd = none ∧ s.rst = false

/-- The block has accepted the word `w` and not yet run it (R23): legal parameters, `BUSY = 1`, no reset asked for. -/
def State.holds (s : State) (w : Cmd) : Prop :=
  s.cfg.legal = true ∧ s.busy = true ∧ s.pending = none ∧ s.cmd = some w ∧ s.rst = false

/-- The next `n` requests are answered at once. -/
def State.prompt (s : State) (n : Nat) : Prop := ∀ k < n, (s.draw k).wait = 0

/-- The state after `n` draws are used up. -/
def State.dropDraws (s : State) (n : Nat) : State := { s with script := s.script.drop n, draws := s.draws + n }

/-- Commands run one after the other, each to its end, on a block that needs no port (R108). -/
def execAll : List Instr → State → Host.Outcome State Fault Refusal
  | [], s => .next s
  | i :: is, s =>
    match exec i s with
    | .next t => execAll is t
    | .fault e => .fault e
    | .refused e => .refused e

/-- The commands of R108: `SET_PIXEL(i, r, g, b)` for `i = 0 .. n - 1`. -/
def pixelCommands (n : Nat) (r g b : Byte) : List Instr :=
  (List.range n).map fun i => .setPixel (BitVec.ofNat 32 i) r g b

/-- Two states that agree on everything a command reads (R31): the parameters, `FB`, `STATE`, `BUS_OWNED`, `PIN_MODE`, and what the
platform draws. -/
def State.agree (s t : State) : Prop :=
  s.cfg = t.cfg ∧ s.fb = t.fb ∧ s.lifecycle = t.lifecycle ∧ s.busOwned = t.busOwned ∧ s.pinMode = t.pinMode ∧
    s.script = t.script ∧ s.draws = t.draws

/-- What a command that ends with an error has left as it was (R160): everything of the block but `RESULT`, the code's sticky bit and, for a
`SEND` that ends `TRANSFER_FAILED`, its event in `TRACE`. -/
def ErrorFrame (s t : State) : Prop :=
  t.fb = s.fb ∧ t.lifecycle = s.lifecycle ∧ t.busOwned = s.busOwned ∧ t.pinMode = s.pinMode ∧ t.cfg = s.cfg ∧
    t.sticky t.result = true ∧ (∀ c, c ≠ t.result → t.sticky c = s.sticky c) ∧
    (t.trace = s.trace ∨
      t.result = .transferFailed ∧ ∃ bytes len timeout, t.trace = s.trace ++ [⟨.transmit bytes len timeout, .fail⟩])

/-- `s'` and `t'` come from `s` and `t` by the same effect (R31): they agree, wait for the same, end the same way, and the same events were
added to `TRACE`. -/
def SameEffect (s t s' t' : State) : Prop :=
  s'.agree t' ∧ s'.busy = t'.busy ∧ s'.pending = t'.pending ∧ (s'.busy = false → s'.result = t'.result) ∧
    ∃ new : List Event, s'.trace = s.trace ++ new ∧ t'.trace = t.trace ++ new

end Sys2Proof.Machine
end

