-- ==== Sys2Proof/Certificates/Slice0/Obligations.lean ====
section
/-! DEFINITION. The statements about the machine, from the numbered rules of spec/. -/

open Sys2Proof Sys2Proof.Machine

/-! ## Parameters and reset -/

/-- R8: a proposed parameter set is taken exactly when it meets the four constraints, and is then taken as proposed; a block whose
parameters break one is refused by every step; `P_HI`, `P_LO` and `0x00` are three different bytes. -/
def Obligations.ParametersOutsideR8AreRefused : Prop :=
  (∀ q : RawParams,
    (q.check.isSome = true ↔
      1 ≤ q.nLeds ∧ 24 * q.nLeds + q.resetLen ≤ 2 ^ 32 ∧
      (q.pHi = 0xF8 ∨ q.pHi = 0xFC ∨ q.pHi = 0xFE) ∧ (q.pLo = 0x80 ∨ q.pLo = 0xC0 ∨ q.pLo = 0xE0)) ∧
    ∀ p, q.check = some p →
      p.nLeds = q.nLeds ∧ p.resetLen = q.resetLen ∧ p.timeout = q.timeout ∧ p.timeoutUnit = q.timeoutUnit ∧
      p.pHi.byte = q.pHi ∧ p.pLo.byte = q.pLo ∧ p.pinPull = q.pinPull ∧ p.legal = true) ∧
  (∀ s : State, ¬(1 ≤ s.cfg.nLeds ∧ 24 * s.cfg.nLeds + s.cfg.resetLen ≤ 2 ^ 32) →
    step s = .refused .illegalParameters) ∧
  ∀ p : Params, p.pHi.byte ≠ p.pLo.byte ∧ p.pHi.byte ≠ 0x00 ∧ p.pLo.byte ≠ 0x00

/-- R7: the derived sizes, and the worked example of 20 LEDs and 60 reset bytes: 540. -/
def Obligations.DerivedSizes : Prop :=
  (∀ p : Params, p.fbLen = 24 * p.nLeds + p.resetLen ∧ p.ledLen = 24 * p.nLeds) ∧
  ∀ p : Params, p.nLeds = 20 → p.resetLen = 60 → p.fbLen = 540

/-- R190: reset puts every element of the state at the reset value of R20's table, whatever the parameters; every byte of `FB` reads
`0x00`, no request is in `TRACE`, and the block accepts commands. -/
def Obligations.ResetValues : Prop :=
  ∀ p : Params,
    (∀ a, (State.resetWith p).fbByte a = 0x00) ∧
    (State.resetWith p).lifecycle = .uninit ∧ (State.resetWith p).busy = false ∧ (State.resetWith p).result = .ok ∧
    (State.resetWith p).stIdx = false ∧ (State.resetWith p).stXfer = false ∧ (State.resetWith p).stPre = false ∧
    (State.resetWith p).stIll = false ∧ (State.resetWith p).busOwned = false ∧ (State.resetWith p).pinMode = .inert ∧
    (State.resetWith p).trace = [] ∧ (State.resetWith p).pendingKind = none ∧ (State.resetWith p).cmdReady = true ∧
    (State.resetWith p).statusPort = 0

/-- R191: a reset abandons whatever is in progress, a pending request too, and sends nothing to the platform: every element of R20 is
at its reset value. The MODEL's choice (log 7): the reset is an input, `rst`, honoured before anything else, and the host's commands
and the platform's coming draws stay. -/
def Obligations.ResetAbandonsCommand : Prop :=
  ∀ s : State, s.cfg.legal = true → s.rst = true →
    step s = .next { State.resetWith s.cfg with program := s.program, script := s.script, draws := s.draws }

/-! ## Command words -/

/-- R77: the command words of the assembly table: an assembled line is its command's word, and these are the words. -/
def Obligations.AssemblyTableWords : Prop :=
  (∀ (l : AsmLine) (i : Instr) (w : Cmd), l.instr? = some i → l.assemble = some w → w = encode i) ∧
  encode .init = 0x0000000000000001 ∧ encode .deinit = 0x0000000000000002 ∧ encode .send = 0x0000000000000005 ∧
  (∀ (i : Word32) (r g b : Byte), (encode (.setPixel i r g b)).toNat =
    (i.toNat <<< 32) ||| (b.toNat <<< 24) ||| (g.toNat <<< 16) ||| (r.toNat <<< 8) ||| 0x03) ∧
  (∀ r g b : Byte, (encode (.setAll r g b)).toNat =
    (b.toNat <<< 24) ||| (g.toNat <<< 16) ||| (r.toNat <<< 8) ||| 0x04) ∧
  encode (.setPixel 0 0xFF 0x00 0x00) = 0x000000000000FF03 ∧
  encode (.setPixel 5 0x12 0x34 0x56) = 0x0000000556341203

/-- R71, R73: the decoder, with the fields taken by division of the word as a number. -/
def Obligations.DecoderFollowsTheFields : Prop :=
  ∀ w : Cmd,
    decode w =
      if w.toNat % 256 = 1 then (if w.toNat / 2 ^ 8 = 0 then .ok .init else .error .nonzeroField)
      else if w.toNat % 256 = 2 then (if w.toNat / 2 ^ 8 = 0 then .ok .deinit else .error .nonzeroField)
      else if w.toNat % 256 = 3 then
        .ok (.setPixel (BitVec.ofNat 32 (w.toNat / 2 ^ 32)) (BitVec.ofNat 8 (w.toNat / 2 ^ 8))
          (BitVec.ofNat 8 (w.toNat / 2 ^ 16)) (BitVec.ofNat 8 (w.toNat / 2 ^ 24)))
      else if w.toNat % 256 = 4 then
        (if w.toNat / 2 ^ 32 = 0 then
          .ok (.setAll (BitVec.ofNat 8 (w.toNat / 2 ^ 8)) (BitVec.ofNat 8 (w.toNat / 2 ^ 16))
            (BitVec.ofNat 8 (w.toNat / 2 ^ 24)))
        else .error .nonzeroField)
      else if w.toNat % 256 = 5 then (if w.toNat / 2 ^ 8 = 0 then .ok .send else .error .nonzeroField)
      else .error .reservedOpcode

/-- Decoding the word of a command gives the command back, whatever its operands (R70 to R73). -/
def Obligations.DecodeOfEncode : Prop := ∀ i : Instr, decode (encode i) = .ok i

/-- A word has one meaning: what decodes to a command is that command's word (R72, R73). -/
def Obligations.EncodeOfDecode : Prop := ∀ (w : Cmd) (i : Instr), decode w = .ok i → encode i = w

/-- The opcode table is unambiguous and the decoder follows it: a word has the fixed bits of a row exactly when it decodes to that
row's command, so no word has the bits of two rows. -/
def Obligations.OpcodeTableDecidesCommand : Prop :=
  ∀ (w : Cmd) (row : TableRow), row ∈ opcodeTable →
    (row.admits w = true ↔ ∃ i, decode w = .ok i ∧ i.mnemonic = row.name)

/-- R76, R77, R78: an assembler line gives a word exactly when its operands fit their fields: an index below `2^32`, colours below 256, a
`.word64` value below `2^64`; that word decodes to the command the line names, and `.word64` gives its value. -/
def Obligations.AssembledLinesDecode : Prop :=
  AsmLine.init.assemble.isSome = true ∧ AsmLine.deinit.assemble.isSome = true ∧ AsmLine.send.assemble.isSome = true ∧
  (∀ i r g b, (AsmLine.setPixel i r g b).assemble.isSome = true ↔ i < 4294967296 ∧ r < 256 ∧ g < 256 ∧ b < 256) ∧
  (∀ r g b, (AsmLine.setAll r g b).assemble.isSome = true ↔ r < 256 ∧ g < 256 ∧ b < 256) ∧
  (∀ v, (AsmLine.word64 v).assemble.isSome = true ↔ v < 18446744073709551616) ∧
  (∀ (l : AsmLine) (w : Cmd) (i : Instr), l.assemble = some w → l.instr? = some i → decode w = .ok i) ∧
  ∀ (v : Nat) (w : Cmd), (AsmLine.word64 v).assemble = some w → w.toNat = v

/-- The decoder on words written out from the table of R72 and the vectors of 95_test_vectors.md 2.3. -/
def Obligations.SampleWordsDecode : Prop :=
  decode 0x0000000000000001 = .ok .init ∧ decode 0x0000000000000002 = .ok .deinit ∧
  decode 0x0000000556341203 = .ok (.setPixel 5 0x12 0x34 0x56) ∧
  decode 0xFFFFFFFFFFFFFF03 = .ok (.setPixel 0xFFFFFFFF 0xFF 0xFF 0xFF) ∧
  decode 0x0000000000FF0004 = .ok (.setAll 0x00 0xFF 0x00) ∧ decode 0x0000000000000005 = .ok .send ∧
  decode 0x0000000000000000 = .error .reservedOpcode ∧ decode 0x8000000000000002 = .error .nonzeroField

/-! ## The bit-timing encoder and the offsets -/

/-- R100, R101: `encode_byte` gives eight wire bytes, byte `k` standing for bit `7 - k`: `P_HI` for a set bit, `P_LO` for a clear one. -/
def Obligations.EncodeByteIsMsbFirst : Prop :=
  ∀ (p : Params) (v : Byte), (encodeByte p v).length = 8 ∧
    ∀ k < 8, (encodeByte p v)[k]? = some (if v.getLsbD (7 - k) then p.pHi.byte else p.pLo.byte)

/-- R102: `encode_pixel` gives 24 wire bytes, the green channel's first, then red's, then blue's. -/
def Obligations.EncodePixelIsGreenRedBlue : Prop :=
  ∀ (p : Params) (r g b : Byte), (encodePixel p r g b).length = 24 ∧
    ∀ j < 24, (encodePixel p r g b)[j]? =
      if j < 8 then (encodeByte p g)[j]? else if j < 16 then (encodeByte p r)[j - 8]? else (encodeByte p b)[j - 16]?

/-- R103: no byte but `P_HI` and `P_LO` is produced; a wire byte is `P_HI` exactly when its colour bit is set; the encoders are
injective. -/
def Obligations.AlphabetIsClosedAndInjective : Prop :=
  ∀ p : Params,
    (∀ r g b : Byte, ∀ x ∈ encodePixel p r g b, x = p.pHi.byte ∨ x = p.pLo.byte) ∧
    (∀ (v : Byte) (k : Nat), k < 8 → ((encodeByte p v)[k]? = some p.pHi.byte ↔ v.getLsbD (7 - k) = true)) ∧
    (∀ v v' : Byte, encodeByte p v = encodeByte p v' → v = v') ∧
    ∀ r g b r' g' b' : Byte, encodePixel p r g b = encodePixel p r' g' b' → r = r' ∧ g = g' ∧ b = b'

/-- R51, R52: the byte for bit `n` of channel `c` of LED `i` is at `24*i + 8*c + (7 - n)`, inside the LED part, and that offset reads back
as `i`, `c`, `n`; every offset of the LED part is the offset of what it reads back as; the rest of `FB` is the reset region. -/
def Obligations.OffsetsReadBack : Prop :=
  ∀ p : Params,
    (∀ i c n, i < p.nLeds → n ≤ 7 →
      bitOffset i c n = 24 * i + 8 * c.number + (7 - n) ∧ bitOffset i c n < p.ledLen ∧
      locate p (bitOffset i c n) = .led i c n) ∧
    (∀ a < p.ledLen, ∃ i c n, locate p a = .led i c n ∧ i < p.nLeds ∧ n ≤ 7 ∧ bitOffset i c n = a) ∧
    (∀ a, p.ledLen ≤ a → a < p.fbLen → locate p a = .resetRegion) ∧
    ∀ a, p.fbLen ≤ a → locate p a = .outside

/-! ## Pixel commands -/

/-- R104, R105: `SET_PIXEL`. In `UNINIT` it raises `PRECONDITION_VIOLATED`; in `READY` with an index out of range `INDEX_OUT_OF_RANGE`;
both leave every byte. Else it completes `OK`: the 24 bytes from `24 * IDX` on are the colour's encoding, every other byte reads as
before, and nothing but `FB`, `RESULT` and `BUSY` changes. -/
def Obligations.SetPixelMeaning : Prop :=
  ∀ (s : State) (idx : Word32) (r g b : Byte),
    (s.lifecycle = .uninit →
      exec (.setPixel idx r g b) s = .next { s with result := .preconditionViolated, stPre := true, busy := false }) ∧
    (s.lifecycle = .ready → s.cfg.nLeds ≤ idx.toNat →
      exec (.setPixel idx r g b) s = .next { s with result := .indexOutOfRange, stIdx := true, busy := false }) ∧
    (s.lifecycle = .ready → idx.toNat < s.cfg.nLeds → s.fb.wf = true →
      ∃ m : Memory, exec (.setPixel idx r g b) s = .next { s with fb := m, result := .ok, busy := false } ∧ m.wf = true ∧
        ∀ a, Memory.read m a =
          if slotBase idx.toNat ≤ a ∧ a < slotBase idx.toNat + 24 then
            (encodePixel s.cfg r g b).getD (a - slotBase idx.toNat) 0
          else s.fbByte a)

/-- R106: what a successful `SET_PIXEL` leaves in its slot does not depend on what was there, and of two successful writes to one slot
the second one's bytes stay. -/
def Obligations.SetPixelOverwrites : Prop :=
  ∀ (s t : State) (idx : Word32) (r g b : Byte),
    s.fb.wf = true → t.fb.wf = true → s.cfg = t.cfg → s.lifecycle = .ready → t.lifecycle = .ready →
    idx.toNat < s.cfg.nLeds →
    ∃ s' t', exec (.setPixel idx r g b) s = .next s' ∧ exec (.setPixel idx r g b) t = .next t' ∧
      (∀ j < 24, s'.fbByte (slotBase idx.toNat + j) = t'.fbByte (slotBase idx.toNat + j)) ∧
      ∀ r' g' b' : Byte, ∃ u v, exec (.setPixel idx r' g' b') s = .next u ∧ exec (.setPixel idx r g b) u = .next v ∧ v.fb = s'.fb

/-- R107: `SET_ALL`. In `UNINIT` it raises `PRECONDITION_VIOLATED`. In `READY` it completes `OK`: every slot holds the colour's encoding,
the reset region and everything else read as before, and nothing but `FB`, `RESULT` and `BUSY` changes. -/
def Obligations.SetAllMeaning : Prop :=
  ∀ (s : State) (r g b : Byte),
    (s.lifecycle = .uninit →
      exec (.setAll r g b) s = .next { s with result := .preconditionViolated, stPre := true, busy := false }) ∧
    (s.lifecycle = .ready → s.fb.wf = true →
      ∃ m : Memory, exec (.setAll r g b) s = .next { s with fb := m, result := .ok, busy := false } ∧ m.wf = true ∧
        (∀ i < s.cfg.nLeds, ∀ j < 24, Memory.read m (slotBase i + j) = (encodePixel s.cfg r g b).getD j 0) ∧
        ∀ a, s.cfg.ledLen ≤ a → Memory.read m a = s.fbByte a)

/-- R108: from `READY`, `SET_ALL` leaves the same state as `SET_PIXEL` for every index from 0 to `N_LEDS - 1`, the same `FB` and
`RESULT = OK`; from `UNINIT` both raise `PRECONDITION_VIOLATED` and leave `FB` unchanged, each command of the sequence raising it. -/
def Obligations.SetAllIsEverySetPixel : Prop :=
  ∀ (s : State) (r g b : Byte), s.cfg.legal = true →
    (s.lifecycle = .ready → ∃ t, exec (.setAll r g b) s = .next t ∧ execAll (pixelCommands s.cfg.nLeds r g b) s = .next t ∧
      t.result = .ok) ∧
    (s.lifecycle = .uninit →
      (∃ t, exec (.setAll r g b) s = .next t ∧ t.result = .preconditionViolated ∧ t.fb = s.fb) ∧
      ∀ k < s.cfg.nLeds, ∃ u t, execAll (pixelCommands k r g b) s = .next u ∧
        exec (.setPixel (BitVec.ofNat 32 k) r g b) u = .next t ∧ t.result = .preconditionViolated ∧ t.fb = s.fb)

/-! ## Errors -/

/-- R163: every command outside the lifecycle state it needs (R130) ends `PRECONDITION_VIOLATED`, with no other state change and no
platform request. -/
def Obligations.WrongLifecycleRaises : Prop :=
  ∀ (s : State) (i : Instr), s.lifecycle ≠ needs i →
    exec i s = .next { s with result := .preconditionViolated, stPre := true, busy := false }

/-- R74, R164: an idle block that is offered a reserved opcode, or a word with a nonzero must-be-zero field, accepts the word and ends
`ILLEGAL_COMMAND`, in either lifecycle state, with no other effect: after some number of steps the block is idle again and only `RESULT` and
`ST_ILL` have changed, and the word is no longer offered. -/
def Obligations.IllegalWordsRaise : Prop :=
  ∀ (s : State) (w : Cmd) (rest : List Cmd), s.idle → s.program = w :: rest →
    (w.toNat % 256 = 0 ∨ 6 ≤ w.toNat % 256 ∨
      ((w.toNat % 256 = 1 ∨ w.toNat % 256 = 2 ∨ w.toNat % 256 = 5) ∧ w.toNat / 2 ^ 8 ≠ 0) ∨
      (w.toNat % 256 = 4 ∧ w.toNat / 2 ^ 32 ≠ 0)) →
    ∃ n, Reaches n s { s with program := rest, result := .illegalCommand, stIll := true }

/-- R167: the checks run in the order decode, lifecycle, index, platform answer, and the first that fails decides the code; the first
three are done before any byte of `FB` is written or any request sent. The two steps, acceptance and run, are the MODEL's cut (log 10), and
`s.draw 0` is its draw for the answer of a `SEND` (log 5). -/
def Obligations.ErrorPriority : Prop :=
  ∀ (s : State) (w : Cmd) (rest : List Cmd), s.idle → s.program = w :: rest →
    ∃ t, Reaches 2 s t ∧
      match decode w with
      | .error _ => t.result = .illegalCommand ∧ t.fb = s.fb ∧ t.trace = s.trace ∧ t.pending = none
      | .ok i =>
        if s.lifecycle ≠ needs i then
          t.result = .preconditionViolated ∧ t.fb = s.fb ∧ t.trace = s.trace ∧ t.pending = none
        else
          match i with
          | .init => t.busy = false → t.result = .ok
          | .deinit => t.busy = false → t.result = .ok
          | .setPixel idx _ _ _ =>
            if s.cfg.nLeds ≤ idx.toNat then
              t.result = .indexOutOfRange ∧ t.fb = s.fb ∧ t.trace = s.trace ∧ t.pending = none
            else t.result = .ok
          | .setAll _ _ _ => t.result = .ok
          | .send => t.busy = false → t.result = if (s.draw 0).ok then .ok else .transferFailed

/-- R160: a command that ends with a result other than `OK` has changed neither `FB` nor `STATE` nor `BUS_OWNED` nor `PIN_MODE` nor any
sticky bit but the code's, which is set, and `TRACE` only by the failed transmit of a `SEND` that ends `TRANSFER_FAILED`: from the block
that has accepted the command to the first state with `BUSY = 0`, however many steps it waits. The same holds of the step in which a
command ends, whatever the steps before it were. -/
def Obligations.ErrorsArePrecise : Prop :=
  (∀ (n : Nat) (s t : State) (w : Cmd), s.holds w → Reaches n s t →
    (∀ m < n, ∀ u, Reaches m s u → u.busy = true) → t.busy = false → t.result ≠ .ok → ErrorFrame s t) ∧
  ∀ s t : State, step s = .next t → s.rst = false → s.busy = true → t.busy = false → t.result ≠ .ok → ErrorFrame s t

/-- R25: only reset clears a sticky bit, and a sticky bit is set only by a command that ends with its code. -/
def Obligations.OnlyResetClearsStickyBits : Prop :=
  ∀ (s t : State) (c : ResultCode), step s = .next t → s.rst = false →
    (s.sticky c = true → t.sticky c = true) ∧ (t.sticky c = true → s.sticky c = false → t.result = c ∧ t.busy = false)

/-! ## Bus commands -/

/-- R131: `INIT`. In `READY` it raises; in `UNINIT`, where the platform answers its three requests at once, it completes `OK` with the
bus held, the pin a push-pull output, `STATE = READY` and the three events in order; where the bus is not granted at once it waits with
`ACQUIRE` pending. `FB` is not touched. -/
def Obligations.InitMeaning : Prop :=
  ∀ s : State,
    (s.lifecycle = .ready →
      exec .init s = .next { s with result := .preconditionViolated, stPre := true, busy := false }) ∧
    (s.lifecycle = .uninit → s.prompt 3 → (s.draw 0).granted = true →
      exec .init s = .next { s.dropDraws 3 with
        busOwned := true, pinMode := .ppOut, lifecycle := .ready, result := .ok, busy := false, pending := none,
        trace := s.trace ++ [⟨.acquire, .done⟩, ⟨.pinCfg .ppOut (some s.cfg.pinPull) (some .max), .done⟩,
          ⟨.pinWrite .low, .done⟩] }) ∧
    (s.lifecycle = .uninit → ((s.draw 0).granted = false ∨ (s.draw 0).wait ≠ 0) →
      exec .init s = .next { s.dropDraws 1 with pending := some ⟨.acquire, s.draw 0⟩ })

/-- R134: `DEINIT`. In `UNINIT` it raises; in `READY`, where the platform answers its three requests at once, it completes `OK` with the
bus given back, the pin inert, `STATE = UNINIT` and the three events in order. `FB` is not touched. -/
def Obligations.DeinitMeaning : Prop :=
  ∀ s : State,
    (s.lifecycle = .uninit →
      exec .deinit s = .next { s with result := .preconditionViolated, stPre := true, busy := false }) ∧
    (s.lifecycle = .ready → s.prompt 3 →
      exec .deinit s = .next { s.dropDraws 3 with
        busOwned := false, pinMode := .inert, lifecycle := .uninit, result := .ok, busy := false, pending := none,
        trace := s.trace ++ [⟨.release, .done⟩, ⟨.pinWrite .low, .done⟩, ⟨.pinCfg .inert none none, .done⟩] })

/-- R137: `SEND`. In `UNINIT` it raises; in `READY`, where the platform answers at once, one `TRANSMIT` of the whole `FB` goes into `TRACE`
and the command ends `OK` or, on `fail`, `TRANSFER_FAILED`. `FB`, `STATE`, `BUS_OWNED` and `PIN_MODE` are not written. -/
def Obligations.SendMeaning : Prop :=
  ∀ s : State,
    (s.lifecycle = .uninit →
      exec .send s = .next { s with result := .preconditionViolated, stPre := true, busy := false }) ∧
    (s.lifecycle = .ready → s.prompt 1 → (s.draw 0).ok = true →
      exec .send s = .next { s.dropDraws 1 with
        result := .ok, busy := false, pending := none,
        trace := s.trace ++ [⟨.transmit ((List.range s.cfg.fbLen).map s.fbByte) s.cfg.fbLen s.cfg.timeout, .ok⟩] }) ∧
    (s.lifecycle = .ready → s.prompt 1 → (s.draw 0).ok = false →
      exec .send s = .next { s.dropDraws 1 with
        result := .transferFailed, stXfer := true, busy := false, pending := none,
        trace := s.trace ++ [⟨.transmit ((List.range s.cfg.fbLen).map s.fbByte) s.cfg.fbLen s.cfg.timeout, .fail⟩] })

/-- R135 and the frame of the bus commands: whatever the platform draws, `INIT`, `DEINIT` and `SEND` leave every byte of `FB`, `ST_IDX` and
`ST_ILL`; `INIT` and `DEINIT` leave `ST_XFER`; `SEND` leaves `STATE`, `BUS_OWNED` and `PIN_MODE`; and a step of a waiting block leaves every
byte of `FB`. -/
def Obligations.BusCommandsKeepFrameBuffer : Prop :=
  (∀ (s t : State) (i : Instr), (i = .init ∨ i = .deinit ∨ i = .send) → exec i s = .next t →
    (∀ a, t.fbByte a = s.fbByte a) ∧ t.cfg = s.cfg ∧ t.program = s.program ∧ t.rst = s.rst ∧
    t.stIdx = s.stIdx ∧ t.stIll = s.stIll ∧ (i ≠ .send → t.stXfer = s.stXfer) ∧
    (i = .send → t.lifecycle = s.lifecycle ∧ t.busOwned = s.busOwned ∧ t.pinMode = s.pinMode) ∧
    (s.lifecycle = needs i → t.stPre = s.stPre)) ∧
  ∀ s t : State, step s = .next t → s.rst = false → s.pendingKind ≠ none → ∀ a, t.fbByte a = s.fbByte a

/-- R134, R136: `DEINIT` offered to any idle block, whatever the platform draws. In `UNINIT` it raises and sends nothing. In `READY` it
always completes: after some number of steps the block is idle, the bus is given back, the pin is inert, `STATE = UNINIT`,
`RESULT = OK`, the three events are in `TRACE` in order, and everything else is as before, `FB` and the sticky bits too (`sc` and `k` are
what is left of the MODEL's platform script and counter, log 5; that the platform answers is the duty of log 6; acceptance is a step of its
own, log 10); with no further command the block stays as it is. -/
def Obligations.DeinitAlwaysCompletes : Prop :=
  ∀ (s : State) (rest : List Cmd), s.idle → s.program = 0x0000000000000002 :: rest →
    (s.lifecycle = .uninit → Reaches 2 s { s with program := rest, result := .preconditionViolated, stPre := true }) ∧
    (s.lifecycle = .ready → ∃ n t sc k, Reaches n s t ∧ t.idle ∧ (rest = [] → step t = .next t) ∧
      t = { s with
        program := rest, busOwned := false, pinMode := .inert, lifecycle := .uninit, result := .ok, script := sc, draws := k,
        trace := s.trace ++ [⟨.release, .done⟩, ⟨.pinWrite .low, .done⟩, ⟨.pinCfg .inert none none, .done⟩] })

/-- R137, R138: `SEND` offered to any idle block, whatever the platform draws. In `UNINIT` it raises and sends nothing. In `READY` it
completes with exactly one transmit request, of `FB[0]` to `FB[FB_LEN - 1]` with `len = FB_LEN` and `timeout = TIMEOUT`, and ends `OK`
exactly when the answer, which is the platform's draw, is `ok`, else `TRANSFER_FAILED` with `ST_XFER` set; everything else is as before
(`sc` and `k` are what is left of the MODEL's platform script and counter, and `s.draw 0` is its draw, log 5; that the platform answers is
the duty of log 6; acceptance is a step of its own, log 10). -/
def Obligations.SendTransmitsExactlyOnce : Prop :=
  ∀ (s : State) (rest : List Cmd), s.idle → s.program = 0x0000000000000005 :: rest →
    (s.lifecycle = .uninit → Reaches 2 s { s with program := rest, result := .preconditionViolated, stPre := true }) ∧
    (s.lifecycle = .ready → ∃ n t sc k a, Reaches n s t ∧ t.idle ∧ (a = .ok ∨ a = .fail) ∧ (a = .ok ↔ (s.draw 0).ok = true) ∧
      t = { s with
        program := rest, result := if a = .ok then .ok else .transferFailed, stXfer := if a = .ok then s.stXfer else true,
        script := sc, draws := k,
        trace := s.trace ++ [⟨.transmit ((List.range s.cfg.fbLen).map s.fbByte) s.cfg.fbLen s.cfg.timeout, a⟩] })

/-- R131: `INIT` offered to any idle block, whatever the platform draws. In `READY` it raises and sends nothing. In `UNINIT`, if the bus
is ever granted, it completes: after some number of steps the block is idle, the bus is held, the pin is a push-pull output,
`STATE = READY`, `RESULT = OK`, the three events are in `TRACE` in order, and everything else is as before, `FB` and the sticky bits too
(`sc` and `k` are what is left of the MODEL's platform script and counter, and `s.draw 0` is its draw, log 5; that the platform answers the
two pin requests is the duty of log 6; acceptance is a step of its own, log 10); if the bus is never granted, `BUSY` stays 1. -/
def Obligations.InitCompletesWhenGranted : Prop :=
  ∀ (s : State) (rest : List Cmd), s.idle → s.program = 0x0000000000000001 :: rest →
    (s.lifecycle = .ready → Reaches 2 s { s with program := rest, result := .preconditionViolated, stPre := true }) ∧
    (s.lifecycle = .uninit → (s.draw 0).granted = true → ∃ n t sc k, Reaches n s t ∧ t.idle ∧
      t = { s with
        program := rest, busOwned := true, pinMode := .ppOut, lifecycle := .ready, result := .ok, script := sc, draws := k,
        trace := s.trace ++ [⟨.acquire, .done⟩, ⟨.pinCfg .ppOut (some s.cfg.pinPull) (some .max), .done⟩,
          ⟨.pinWrite .low, .done⟩] }) ∧
    (s.lifecycle = .uninit → (s.draw 0).granted = false → ∀ n t, Reaches (n + 1) s t → t.busy = true)

/-- R140, R196: if the bus is never granted, `INIT` waits for ever: once it runs, after any number of steps `BUSY = 1`, `PENDING = ACQUIRE`,
`STATE = UNINIT`, nothing is in `TRACE` that was not there, and every later command still waits on the port (`s.draw 0` is the MODEL's draw,
log 5; acceptance is a step of its own, log 10). -/
def Obligations.InitWaitsForeverWithoutTheBus : Prop :=
  ∀ (s : State) (rest : List Cmd), s.idle → s.lifecycle = .uninit → s.program = 0x0000000000000001 :: rest →
    (s.draw 0).granted = false →
    ∀ n, ∃ t, Reaches (n + 2) s t ∧ t.busy = true ∧ t.pendingKind = some .ACQUIRE ∧ t.lifecycle = .uninit ∧
      t.busOwned = s.busOwned ∧ t.trace = s.trace ∧ t.program = rest ∧ t.fb = s.fb ∧ t.cmdReady = false

/-- R12, R61, R140: every command in progress ends, unless it is an `INIT` whose bus is never granted: a busy block that meets the
invariant, without a reset, is idle after some number of steps, and takes no command meanwhile. That the platform answers the other
requests is the duty of log 6, its draws are the MODEL's (log 5). -/
def Obligations.CommandsInProgressEnd : Prop :=
  ∀ s : State, s.Inv → s.rst = false → s.busy = true →
    (∀ o, s.pending = some o → o.req = .acquire → o.draw.granted = true) →
    (∀ w, s.cmd = some w → decode w = .ok .init → s.lifecycle = .uninit → (s.draw 0).granted = true) →
    ∃ n t, Reaches n s t ∧ t.idle ∧ t.program = s.program

/-! ## The wire and the ports -/

/-- R53: a `SEND` hands over `FB[0]`, `FB[1]`, ... in ascending offset order, `FB_LEN` bytes, and inside each byte bit 7 goes first: bit
`8 * a + k` of what goes out is bit `7 - k` of `FB[a]`. -/
def Obligations.FrameGoesOutInOrder : Prop :=
  ∀ s : State,
    (s.lifecycle = .ready → s.prompt 1 → ∃ t a, exec .send s = .next t ∧
      t.trace = s.trace ++ [⟨.transmit s.frame s.cfg.fbLen s.cfg.timeout, a⟩]) ∧
    s.frame.length = s.cfg.fbLen ∧ (∀ a < s.cfg.fbLen, s.frame[a]? = some (s.fbByte a)) ∧
    (wireBits s.frame).length = 8 * s.cfg.fbLen ∧
    ∀ a < s.cfg.fbLen, ∀ k < 8, (wireBits s.frame)[8 * a + k]? = some ((s.fbByte a).getLsbD (7 - k))

/-- R139, R140: an answered `ok` means that all of the bytes went out; after `fail`, some leading part of them, and any such part may be. -/
def Obligations.FailedTransferSendsAnyLeadingPart : Prop :=
  ∀ (bytes : List Byte) (len timeout : Nat),
    (∀ cut, Event.wire ⟨.transmit bytes len timeout, .ok⟩ cut = bytes) ∧
    (∀ cut, Event.wire ⟨.transmit bytes len timeout, .fail⟩ cut <+: bytes) ∧
    ∀ part, part <+: bytes → ∃ cut, Event.wire ⟨.transmit bytes len timeout, .fail⟩ cut = part

/-- R198: every frame that a successful transmit put on the wire is `FB_LEN` bytes and ends with the `RESET_LEN` zero bytes of the reset
region. -/
def Obligations.FramesEndWithResetRegion : Prop :=
  ∀ (s : State) (e : Event) (cut : Nat), s.Inv → e ∈ s.trace → isTransmit e.req = true → e.ans = .ok →
    (e.wire cut).length = s.cfg.fbLen ∧
    (e.wire cut).drop (s.cfg.fbLen - s.cfg.resetLen) = List.replicate s.cfg.resetLen 0x00

/-- R201: after reset every LED slot holds 24 bytes of `0x00`, which is neither `P_HI` nor `P_LO`; a `SEND` while slot `i` holds them hands
over 24 idle bytes for that LED. -/
def Obligations.UnwrittenSlotsAreIdleBytes : Prop :=
  (∀ (p : Params) (i j : Nat), i < p.nLeds → j < 24 → (State.resetWith p).fbByte (slotBase i + j) = 0x00) ∧
  (∀ p : Params, p.pHi.byte ≠ 0x00 ∧ p.pLo.byte ≠ 0x00) ∧
  ∀ (s : State) (i : Nat), s.lifecycle = .ready → s.prompt 1 → i < s.cfg.nLeds → (∀ j < 24, s.fbByte (slotBase i + j) = 0x00) →
    ∃ t bytes a, exec .send s = .next t ∧ t.trace = s.trace ++ [⟨.transmit bytes s.cfg.fbLen s.cfg.timeout, a⟩] ∧
      (bytes.drop (slotBase i)).take 24 = List.replicate 24 0x00

/-- R24, R25: the fields of the status word, read while `BUSY = 0`, with the five numbers of the result codes; while `BUSY = 1` bit 1
reads 1 (and nothing is said of the other bits); after reset every bit is 0. -/
def Obligations.StatusWordLayout : Prop :=
  (∀ s : State,
    (s.busy = false →
      s.statusPort.getLsbD 0 = decide (s.lifecycle = .ready) ∧ s.statusPort.getLsbD 1 = false ∧
      s.statusPort.extractLsb' 2 3 =
        (match s.result with
          | .ok => 0
          | .indexOutOfRange => 1
          | .transferFailed => 2
          | .preconditionViolated => 3
          | .illegalCommand => 4) ∧
      s.statusPort.getLsbD 5 = s.stIdx ∧ s.statusPort.getLsbD 6 = s.stXfer ∧
      s.statusPort.getLsbD 7 = s.stPre ∧ s.statusPort.getLsbD 8 = s.stIll ∧ s.statusPort.getLsbD 9 = s.busOwned ∧
      s.statusPort.getLsbD 10 = decide (s.pinMode = .ppOut) ∧ s.statusPort.extractLsb' 11 21 = 0) ∧
    (s.busy = true → s.statusPort.getLsbD 1 = true)) ∧
  ∀ p : Params, (State.resetWith p).statusPort = 0

/-- R56: the read port while `BUSY = 0`: the byte of `FB`, `0x00` at or past `FB_LEN`. -/
def Obligations.ReadPortShowsFrameBuffer : Prop :=
  ∀ (s : State) (addr : Word32), s.busy = false →
    s.rdData addr = if addr.toNat < s.cfg.fbLen then s.fbByte addr.toNat else 0x00

/-! ## Rules about the whole machine -/

/-- R57: a step that changes a byte of `FB` is a reset, which leaves `0x00`, or a `READY` block that runs the pixel command it has
accepted, which leaves `P_HI` or `P_LO` in the LED part. -/
def Obligations.OnlyResetAndPixelCommandsWriteFb : Prop :=
  ∀ (s t : State) (a : Nat), s.fb.wf = true → step s = .next t → t.fbByte a ≠ s.fbByte a →
    (s.rst = true ∧ t.fbByte a = 0x00) ∨
    (s.rst = false ∧ s.lifecycle = .ready ∧ a < s.cfg.ledLen ∧
      (t.fbByte a = s.cfg.pHi.byte ∨ t.fbByte a = s.cfg.pLo.byte) ∧
      ∃ w i, s.holds w ∧ decode w = .ok i ∧ (i.mnemonic = .SET_PIXEL ∨ i.mnemonic = .SET_ALL))

/-- R22: without a reset only `INIT` and `DEINIT` change `STATE`, when they complete `OK`. A change from `UNINIT` to `READY` is that of an
`INIT` that the block has accepted and runs, or that waits for one of its three requests, `ACQUIRE`, `PINCFG(PP_OUT, ...)` or
`PINWRITE(LOW)`; a change from `READY` to `UNINIT` is that of a `DEINIT` that the block has accepted and runs, or that waits for
`RELEASE`, `PINWRITE(LOW)` or `PINCFG(INERT, ...)`. A `SEND` never changes it. -/
def Obligations.OnlyInitAndDeinitChangeState : Prop :=
  ∀ s t : State, step s = .next t → s.rst = false → t.lifecycle ≠ s.lifecycle →
    t.busy = false ∧ t.result = .ok ∧
    ((s.lifecycle = .uninit ∧ t.lifecycle = .ready ∧
        ((∃ w, s.holds w ∧ decode w = .ok .init) ∨
          ∃ o, s.pending = some o ∧
            (o.req = .acquire ∨ (∃ pull speed, o.req = .pinCfg .ppOut pull speed) ∨ o.req = .pinWrite .low))) ∨
      (s.lifecycle = .ready ∧ t.lifecycle = .uninit ∧
        ((∃ w, s.holds w ∧ decode w = .ok .deinit) ∨
          ∃ o, s.pending = some o ∧
            (o.req = .release ∨ o.req = .pinWrite .low ∨ ∃ pull speed, o.req = .pinCfg .inert pull speed))))

/-- R61, R193: a busy block takes no command from the port, and a step takes at most the one command on the port, from an idle block.
That the block then holds the taken word, not yet run, after that step is the MODEL's cut (log 10), no clause of R61 or R193. -/
def Obligations.CommandsAreTakenOneAtATime : Prop :=
  ∀ s t : State, step s = .next t →
    (s.busy = true → t.program = s.program) ∧
    (t.program = s.program ∨ (s.idle ∧ ∃ w, s.program = w :: t.program ∧ t.holds w))

/-- R29, R30: no step writes a parameter, and without a reset `TRACE` only grows at its end, by at most the three requests of one
command. -/
def Obligations.TraceOnlyGrows : Prop :=
  ∀ s t : State, step s = .next t →
    t.cfg = s.cfg ∧ (s.rst = false → ∃ new : List Event, t.trace = s.trace ++ new ∧ new.length ≤ 3)

/-- R31: a command reads nothing that earlier commands left but `FB`, `STATE`, `BUS_OWNED` and `PIN_MODE`: on two states that agree on these
(and on the parameters and the platform's draws, which are the MODEL's, log 5) it does the same to them, ends the same way, and adds the
same requests to `TRACE`, whatever `RESULT`, the sticky bits and the traces were. First of a meaning as a whole; then of each step of a
busy block, from the step that runs the accepted word to the one that ends the command: where the same word is held, or the same request
waits, the two steps lead to states that agree, hold and wait for the same, and have added the same requests. -/
def Obligations.CommandsReadOnlyTheNamedState : Prop :=
  (∀ (i : Instr) (s t : State), s.agree t → s.busy = true → t.busy = true → s.pending = none → t.pending = none →
    ∃ s' t', exec i s = .next s' ∧ exec i t = .next t' ∧ SameEffect s t s' t') ∧
  ∀ s t : State, s.agree t → s.cfg.legal = true → s.rst = false → t.rst = false → s.busy = true → t.busy = true →
    s.cmd = t.cmd → s.pending = t.pending →
    ((s.cmd = none ∧ s.pending ≠ none) ∨ (s.cmd ≠ none ∧ s.pending = none)) →
    ∃ s' t', step s = .next s' ∧ step t = .next t' ∧ s'.cmd = t'.cmd ∧ SameEffect s t s' t'

/-- R110: a command always answers a next state, in every state and with every operand: no offset it forms lies outside `FB`. -/
def Obligations.ExecNeverStops : Prop := ∀ (i : Instr) (s : State), ∃ t, exec i s = .next t

/-- The invariant holds right after reset, for every legal parameter set. -/
def Obligations.InvariantAtReset : Prop :=
  (∀ p : Params, p.legal = true → (State.resetWith p).Inv) ∧ State.reset.Inv

/-- Every step keeps the invariant: legal parameters, canonical `FB`, reset region zero, every slot unwritten or an encoding, `BUSY = 1`
exactly while a command is in progress, the lifecycle with the bus and the pin in every stage of a command, the sticky bits with `RESULT`,
the shadow state with `TRACE`, and whole frames in every transmit (R23, R25 to R28, R35, R61, R138). R23 says that `BUSY = 1` while a
command is in progress and R35 that `PENDING = NONE` when `BUSY = 0`; that a busy block between two steps holds either an accepted word or
a pending request, never both and never neither, is the MODEL's (logs 10 and 12), and so is `PIN_MODE` in the waiting stages (log 14). -/
def Obligations.EveryStepKeepsInvariant : Prop := ∀ s t : State, s.Inv → step s = .next t → t.Inv

/-- A block that meets the invariant never stops. -/
def Obligations.NoStopUnderInvariant : Prop := ∀ s : State, s.Inv → ∃ t, step s = .next t

/-- R28: the invariant the spec states for `BUSY = 0`. -/
def Obligations.IdleBlockMeetsR28 : Prop :=
  ∀ s : State, s.Inv → s.busy = false →
    (s.lifecycle = .ready → s.busOwned = true ∧ s.pinMode = .ppOut) ∧
    (s.lifecycle = .uninit → s.busOwned = false ∧ s.pinMode = .inert) ∧
    (∀ a, s.cfg.ledLen ≤ a → s.fbByte a = 0x00) ∧
    (∀ i < s.cfg.nLeds, (∀ j < 24, s.fbByte (24 * i + j) = 0x00) ∨
      ∃ r g b : Byte, ∀ j < 24, s.fbByte (24 * i + j) = (encodePixel s.cfg r g b).getD j 0) ∧
    ∀ a < s.cfg.ledLen, s.fbByte a = 0x00 ∨ s.fbByte a = s.cfg.pHi.byte ∨ s.fbByte a = s.cfg.pLo.byte

/-! ## Steps and commands -/

/-- An idle block accepts the command on its port, and its next step runs it: where the accepted word decodes to `i`, that step is `exec i`
after the word is dropped; where it decodes to none, that step ends `ILLEGAL_COMMAND` (R73, R164). That acceptance is a step of its own is
the MODEL's cut (log 10). -/
def Obligations.StepRunsTheOfferedCommand : Prop :=
  (∀ (s : State) (w : Cmd) (rest : List Cmd), s.idle → s.program = w :: rest →
    step s = .next { s with program := rest, busy := true, cmd := some w } ∧
    State.holds { s with program := rest, busy := true, cmd := some w } w) ∧
  ∀ (s : State) (w : Cmd), s.holds w →
    (∀ i, decode w = .ok i → step s = exec i { s with cmd := none }) ∧
    ∀ e, decode w = .error e →
      step s = .next { s with cmd := none, result := .illegalCommand, stIll := true, busy := false }

/-- A block that is offered nothing stays as it is (R175). -/
def Obligations.IdleBlockStays : Prop := ∀ s : State, s.idle → s.program = [] → step s = .next s

/-- A word placed by `withFetchWord` is what the very next step runs: the MODEL's host interface (log 18). -/
def Obligations.FetchWordIsRunNext : Prop :=
  ∀ (s : State) (w : Cmd) (i : Instr), s.cfg.legal = true → decode w = .ok i →
    decodeTableWord 64 w.toNat = some i ∧
    step (s.withFetchWord 64 w.toNat) = exec i { s with cmd := none, busy := true, pending := none, rst := false }

/-- R23: `BUSY` is 1 from the moment the block accepts a command, which it does only when `BUSY = 0`, until the command completes: an idle
block that is offered a word accepts it, and nothing else changes; without a reset, a step from `BUSY = 0` to `BUSY = 1` accepts the word
on the port, and a step from `BUSY = 1` to `BUSY = 0` is the end of a command: no word and no request is left, and `RESULT` has its
sticky bit. As long as a word is held or a request waits, `BUSY = 1`. That the accepted word is held between two steps is the MODEL's
(log 10). -/
def Obligations.BusyFromAcceptanceToEnd : Prop :=
  (∀ (s : State) (w : Cmd) (rest : List Cmd), s.idle → s.program = w :: rest →
    step s = .next { s with program := rest, busy := true, cmd := some w }) ∧
  (∀ s t : State, step s = .next t → s.busy = false → t.busy = true → ∃ w, s.program = w :: t.program ∧ t.holds w) ∧
  (∀ s t : State, step s = .next t → s.rst = false → s.busy = true → t.busy = false →
    t.cmd = none ∧ t.pending = none ∧ t.sticky t.result = true) ∧
  ∀ s t : State, s.Inv → step s = .next t → (t.cmd ≠ none ∨ t.pending ≠ none) → t.busy = true
end

