-- ==== Sys2Proof/Laws/State.lean ====
section
/-! SUPPORT. One lemma per field per update of State, so that no proof unfolds a record update. -/

namespace Sys2Proof.Machine

variable (s : State)

@[simp] theorem State.raise_cfg (c : ResultCode) : (s.raise c).cfg = s.cfg := by cases c <;> rfl
@[simp] theorem State.raise_fb (c : ResultCode) : (s.raise c).fb = s.fb := by cases c <;> rfl
@[simp] theorem State.raise_lifecycle (c : ResultCode) : (s.raise c).lifecycle = s.lifecycle := by cases c <;> rfl
@[simp] theorem State.raise_busy (c : ResultCode) : (s.raise c).busy = false := by cases c <;> rfl
@[simp] theorem State.raise_result (c : ResultCode) : (s.raise c).result = c := by cases c <;> rfl
@[simp] theorem State.raise_busOwned (c : ResultCode) : (s.raise c).busOwned = s.busOwned := by cases c <;> rfl
@[simp] theorem State.raise_pinMode (c : ResultCode) : (s.raise c).pinMode = s.pinMode := by cases c <;> rfl
@[simp] theorem State.raise_trace (c : ResultCode) : (s.raise c).trace = s.trace := by cases c <;> rfl
@[simp] theorem State.raise_pending (c : ResultCode) : (s.raise c).pending = s.pending := by cases c <;> rfl
@[simp] theorem State.raise_cmd (c : ResultCode) : (s.raise c).cmd = s.cmd := by cases c <;> rfl
@[simp] theorem State.raise_program (c : ResultCode) : (s.raise c).program = s.program := by cases c <;> rfl
@[simp] theorem State.raise_rst (c : ResultCode) : (s.raise c).rst = s.rst := by cases c <;> rfl
@[simp] theorem State.raise_script (c : ResultCode) : (s.raise c).script = s.script := by cases c <;> rfl
@[simp] theorem State.raise_draws (c : ResultCode) : (s.raise c).draws = s.draws := by cases c <;> rfl

@[simp] theorem State.complete_cfg : (s.complete).cfg = s.cfg := rfl
@[simp] theorem State.complete_fb : (s.complete).fb = s.fb := rfl
@[simp] theorem State.complete_lifecycle : (s.complete).lifecycle = s.lifecycle := rfl
@[simp] theorem State.complete_busy : (s.complete).busy = false := rfl
@[simp] theorem State.complete_result : (s.complete).result = .ok := rfl
@[simp] theorem State.complete_stIdx : (s.complete).stIdx = s.stIdx := rfl
@[simp] theorem State.complete_stXfer : (s.complete).stXfer = s.stXfer := rfl
@[simp] theorem State.complete_stPre : (s.complete).stPre = s.stPre := rfl
@[simp] theorem State.complete_stIll : (s.complete).stIll = s.stIll := rfl
@[simp] theorem State.complete_busOwned : (s.complete).busOwned = s.busOwned := rfl
@[simp] theorem State.complete_pinMode : (s.complete).pinMode = s.pinMode := rfl
@[simp] theorem State.complete_trace : (s.complete).trace = s.trace := rfl
@[simp] theorem State.complete_pending : (s.complete).pending = s.pending := rfl
@[simp] theorem State.complete_cmd : (s.complete).cmd = s.cmd := rfl
@[simp] theorem State.complete_program : (s.complete).program = s.program := rfl
@[simp] theorem State.complete_rst : (s.complete).rst = s.rst := rfl
@[simp] theorem State.complete_script : (s.complete).script = s.script := rfl
@[simp] theorem State.complete_draws : (s.complete).draws = s.draws := rfl

@[simp] theorem State.takeDraw_cfg : (s.takeDraw).cfg = s.cfg := rfl
@[simp] theorem State.takeDraw_fb : (s.takeDraw).fb = s.fb := rfl
@[simp] theorem State.takeDraw_lifecycle : (s.takeDraw).lifecycle = s.lifecycle := rfl
@[simp] theorem State.takeDraw_busy : (s.takeDraw).busy = s.busy := rfl
@[simp] theorem State.takeDraw_result : (s.takeDraw).result = s.result := rfl
@[simp] theorem State.takeDraw_stIdx : (s.takeDraw).stIdx = s.stIdx := rfl
@[simp] theorem State.takeDraw_stXfer : (s.takeDraw).stXfer = s.stXfer := rfl
@[simp] theorem State.takeDraw_stPre : (s.takeDraw).stPre = s.stPre := rfl
@[simp] theorem State.takeDraw_stIll : (s.takeDraw).stIll = s.stIll := rfl
@[simp] theorem State.takeDraw_busOwned : (s.takeDraw).busOwned = s.busOwned := rfl
@[simp] theorem State.takeDraw_pinMode : (s.takeDraw).pinMode = s.pinMode := rfl
@[simp] theorem State.takeDraw_trace : (s.takeDraw).trace = s.trace := rfl
@[simp] theorem State.takeDraw_pending : (s.takeDraw).pending = s.pending := rfl
@[simp] theorem State.takeDraw_cmd : (s.takeDraw).cmd = s.cmd := rfl
@[simp] theorem State.takeDraw_program : (s.takeDraw).program = s.program := rfl
@[simp] theorem State.takeDraw_rst : (s.takeDraw).rst = s.rst := rfl
@[simp] theorem State.takeDraw_script : (s.takeDraw).script = s.script.drop 1 := rfl
@[simp] theorem State.takeDraw_draws : (s.takeDraw).draws = s.draws + 1 := rfl

@[simp] theorem State.dropDraws_cfg (n : Nat) : (s.dropDraws n).cfg = s.cfg := rfl
@[simp] theorem State.dropDraws_fb (n : Nat) : (s.dropDraws n).fb = s.fb := rfl
@[simp] theorem State.dropDraws_lifecycle (n : Nat) : (s.dropDraws n).lifecycle = s.lifecycle := rfl
@[simp] theorem State.dropDraws_busy (n : Nat) : (s.dropDraws n).busy = s.busy := rfl
@[simp] theorem State.dropDraws_result (n : Nat) : (s.dropDraws n).result = s.result := rfl
@[simp] theorem State.dropDraws_stIdx (n : Nat) : (s.dropDraws n).stIdx = s.stIdx := rfl
@[simp] theorem State.dropDraws_stXfer (n : Nat) : (s.dropDraws n).stXfer = s.stXfer := rfl
@[simp] theorem State.dropDraws_stPre (n : Nat) : (s.dropDraws n).stPre = s.stPre := rfl
@[simp] theorem State.dropDraws_stIll (n : Nat) : (s.dropDraws n).stIll = s.stIll := rfl
@[simp] theorem State.dropDraws_busOwned (n : Nat) : (s.dropDraws n).busOwned = s.busOwned := rfl
@[simp] theorem State.dropDraws_pinMode (n : Nat) : (s.dropDraws n).pinMode = s.pinMode := rfl
@[simp] theorem State.dropDraws_trace (n : Nat) : (s.dropDraws n).trace = s.trace := rfl
@[simp] theorem State.dropDraws_pending (n : Nat) : (s.dropDraws n).pending = s.pending := rfl
@[simp] theorem State.dropDraws_cmd (n : Nat) : (s.dropDraws n).cmd = s.cmd := rfl
@[simp] theorem State.dropDraws_program (n : Nat) : (s.dropDraws n).program = s.program := rfl
@[simp] theorem State.dropDraws_rst (n : Nat) : (s.dropDraws n).rst = s.rst := rfl
@[simp] theorem State.dropDraws_script (n : Nat) : (s.dropDraws n).script = s.script.drop n := rfl
@[simp] theorem State.dropDraws_draws (n : Nat) : (s.dropDraws n).draws = s.draws + n := rfl

@[simp] theorem State.record_cfg (r : Request) (a : Answer) : (s.record r a).cfg = s.cfg := rfl
@[simp] theorem State.record_fb (r : Request) (a : Answer) : (s.record r a).fb = s.fb := rfl
@[simp] theorem State.record_lifecycle (r : Request) (a : Answer) : (s.record r a).lifecycle = s.lifecycle := rfl
@[simp] theorem State.record_busy (r : Request) (a : Answer) : (s.record r a).busy = s.busy := rfl
@[simp] theorem State.record_result (r : Request) (a : Answer) : (s.record r a).result = s.result := rfl
@[simp] theorem State.record_stIdx (r : Request) (a : Answer) : (s.record r a).stIdx = s.stIdx := rfl
@[simp] theorem State.record_stXfer (r : Request) (a : Answer) : (s.record r a).stXfer = s.stXfer := rfl
@[simp] theorem State.record_stPre (r : Request) (a : Answer) : (s.record r a).stPre = s.stPre := rfl
@[simp] theorem State.record_stIll (r : Request) (a : Answer) : (s.record r a).stIll = s.stIll := rfl
@[simp] theorem State.record_busOwned (r : Request) (a : Answer) : (s.record r a).busOwned = s.busOwned := rfl
@[simp] theorem State.record_pinMode (r : Request) (a : Answer) : (s.record r a).pinMode = s.pinMode := rfl
@[simp] theorem State.record_trace (r : Request) (a : Answer) : (s.record r a).trace = s.trace ++ [⟨r, a⟩] := rfl
@[simp] theorem State.record_pending (r : Request) (a : Answer) : (s.record r a).pending = none := rfl
@[simp] theorem State.record_cmd (r : Request) (a : Answer) : (s.record r a).cmd = s.cmd := rfl
@[simp] theorem State.record_program (r : Request) (a : Answer) : (s.record r a).program = s.program := rfl
@[simp] theorem State.record_rst (r : Request) (a : Answer) : (s.record r a).rst = s.rst := rfl
@[simp] theorem State.record_script (r : Request) (a : Answer) : (s.record r a).script = s.script := rfl
@[simp] theorem State.record_draws (r : Request) (a : Answer) : (s.record r a).draws = s.draws := rfl

@[simp] theorem State.accept_cfg (w : Cmd) (ws : List Cmd) : (s.accept w ws).cfg = s.cfg := rfl
@[simp] theorem State.accept_fb (w : Cmd) (ws : List Cmd) : (s.accept w ws).fb = s.fb := rfl
@[simp] theorem State.accept_lifecycle (w : Cmd) (ws : List Cmd) : (s.accept w ws).lifecycle = s.lifecycle := rfl
@[simp] theorem State.accept_busy (w : Cmd) (ws : List Cmd) : (s.accept w ws).busy = true := rfl
@[simp] theorem State.accept_result (w : Cmd) (ws : List Cmd) : (s.accept w ws).result = s.result := rfl
@[simp] theorem State.accept_stIdx (w : Cmd) (ws : List Cmd) : (s.accept w ws).stIdx = s.stIdx := rfl
@[simp] theorem State.accept_stXfer (w : Cmd) (ws : List Cmd) : (s.accept w ws).stXfer = s.stXfer := rfl
@[simp] theorem State.accept_stPre (w : Cmd) (ws : List Cmd) : (s.accept w ws).stPre = s.stPre := rfl
@[simp] theorem State.accept_stIll (w : Cmd) (ws : List Cmd) : (s.accept w ws).stIll = s.stIll := rfl
@[simp] theorem State.accept_busOwned (w : Cmd) (ws : List Cmd) : (s.accept w ws).busOwned = s.busOwned := rfl
@[simp] theorem State.accept_pinMode (w : Cmd) (ws : List Cmd) : (s.accept w ws).pinMode = s.pinMode := rfl
@[simp] theorem State.accept_trace (w : Cmd) (ws : List Cmd) : (s.accept w ws).trace = s.trace := rfl
@[simp] theorem State.accept_pending (w : Cmd) (ws : List Cmd) : (s.accept w ws).pending = s.pending := rfl
@[simp] theorem State.accept_cmd (w : Cmd) (ws : List Cmd) : (s.accept w ws).cmd = some w := rfl
@[simp] theorem State.accept_program (w : Cmd) (ws : List Cmd) : (s.accept w ws).program = ws := rfl
@[simp] theorem State.accept_rst (w : Cmd) (ws : List Cmd) : (s.accept w ws).rst = s.rst := rfl
@[simp] theorem State.accept_script (w : Cmd) (ws : List Cmd) : (s.accept w ws).script = s.script := rfl
@[simp] theorem State.accept_draws (w : Cmd) (ws : List Cmd) : (s.accept w ws).draws = s.draws := rfl

@[simp] theorem State.dropCmd_cfg : (s.dropCmd).cfg = s.cfg := rfl
@[simp] theorem State.dropCmd_fb : (s.dropCmd).fb = s.fb := rfl
@[simp] theorem State.dropCmd_lifecycle : (s.dropCmd).lifecycle = s.lifecycle := rfl
@[simp] theorem State.dropCmd_busy : (s.dropCmd).busy = s.busy := rfl
@[simp] theorem State.dropCmd_result : (s.dropCmd).result = s.result := rfl
@[simp] theorem State.dropCmd_stIdx : (s.dropCmd).stIdx = s.stIdx := rfl
@[simp] theorem State.dropCmd_stXfer : (s.dropCmd).stXfer = s.stXfer := rfl
@[simp] theorem State.dropCmd_stPre : (s.dropCmd).stPre = s.stPre := rfl
@[simp] theorem State.dropCmd_stIll : (s.dropCmd).stIll = s.stIll := rfl
@[simp] theorem State.dropCmd_busOwned : (s.dropCmd).busOwned = s.busOwned := rfl
@[simp] theorem State.dropCmd_pinMode : (s.dropCmd).pinMode = s.pinMode := rfl
@[simp] theorem State.dropCmd_trace : (s.dropCmd).trace = s.trace := rfl
@[simp] theorem State.dropCmd_pending : (s.dropCmd).pending = s.pending := rfl
@[simp] theorem State.dropCmd_cmd : (s.dropCmd).cmd = none := rfl
@[simp] theorem State.dropCmd_program : (s.dropCmd).program = s.program := rfl
@[simp] theorem State.dropCmd_rst : (s.dropCmd).rst = s.rst := rfl
@[simp] theorem State.dropCmd_script : (s.dropCmd).script = s.script := rfl
@[simp] theorem State.dropCmd_draws : (s.dropCmd).draws = s.draws := rfl

@[simp] theorem State.placeCmd_cfg (w : Cmd) : (s.placeCmd w).cfg = s.cfg := rfl
@[simp] theorem State.placeCmd_fb (w : Cmd) : (s.placeCmd w).fb = s.fb := rfl
@[simp] theorem State.placeCmd_lifecycle (w : Cmd) : (s.placeCmd w).lifecycle = s.lifecycle := rfl
@[simp] theorem State.placeCmd_busy (w : Cmd) : (s.placeCmd w).busy = true := rfl
@[simp] theorem State.placeCmd_result (w : Cmd) : (s.placeCmd w).result = s.result := rfl
@[simp] theorem State.placeCmd_stIdx (w : Cmd) : (s.placeCmd w).stIdx = s.stIdx := rfl
@[simp] theorem State.placeCmd_stXfer (w : Cmd) : (s.placeCmd w).stXfer = s.stXfer := rfl
@[simp] theorem State.placeCmd_stPre (w : Cmd) : (s.placeCmd w).stPre = s.stPre := rfl
@[simp] theorem State.placeCmd_stIll (w : Cmd) : (s.placeCmd w).stIll = s.stIll := rfl
@[simp] theorem State.placeCmd_busOwned (w : Cmd) : (s.placeCmd w).busOwned = s.busOwned := rfl
@[simp] theorem State.placeCmd_pinMode (w : Cmd) : (s.placeCmd w).pinMode = s.pinMode := rfl
@[simp] theorem State.placeCmd_trace (w : Cmd) : (s.placeCmd w).trace = s.trace := rfl
@[simp] theorem State.placeCmd_pending (w : Cmd) : (s.placeCmd w).pending = none := rfl
@[simp] theorem State.placeCmd_cmd (w : Cmd) : (s.placeCmd w).cmd = some w := rfl
@[simp] theorem State.placeCmd_program (w : Cmd) : (s.placeCmd w).program = s.program := rfl
@[simp] theorem State.placeCmd_rst (w : Cmd) : (s.placeCmd w).rst = false := rfl
@[simp] theorem State.placeCmd_script (w : Cmd) : (s.placeCmd w).script = s.script := rfl
@[simp] theorem State.placeCmd_draws (w : Cmd) : (s.placeCmd w).draws = s.draws := rfl

@[simp] theorem State.resetBlock_cfg : (s.resetBlock).cfg = s.cfg := rfl
@[simp] theorem State.resetBlock_fb : (s.resetBlock).fb = [] := rfl
@[simp] theorem State.resetBlock_lifecycle : (s.resetBlock).lifecycle = .uninit := rfl
@[simp] theorem State.resetBlock_busy : (s.resetBlock).busy = false := rfl
@[simp] theorem State.resetBlock_result : (s.resetBlock).result = .ok := rfl
@[simp] theorem State.resetBlock_stIdx : (s.resetBlock).stIdx = false := rfl
@[simp] theorem State.resetBlock_stXfer : (s.resetBlock).stXfer = false := rfl
@[simp] theorem State.resetBlock_stPre : (s.resetBlock).stPre = false := rfl
@[simp] theorem State.resetBlock_stIll : (s.resetBlock).stIll = false := rfl
@[simp] theorem State.resetBlock_busOwned : (s.resetBlock).busOwned = false := rfl
@[simp] theorem State.resetBlock_pinMode : (s.resetBlock).pinMode = .inert := rfl
@[simp] theorem State.resetBlock_trace : (s.resetBlock).trace = [] := rfl
@[simp] theorem State.resetBlock_pending : (s.resetBlock).pending = none := rfl
@[simp] theorem State.resetBlock_cmd : (s.resetBlock).cmd = none := rfl
@[simp] theorem State.resetBlock_program : (s.resetBlock).program = s.program := rfl
@[simp] theorem State.resetBlock_rst : (s.resetBlock).rst = false := rfl
@[simp] theorem State.resetBlock_script : (s.resetBlock).script = s.script := rfl
@[simp] theorem State.resetBlock_draws : (s.resetBlock).draws = s.draws := rfl

@[simp] theorem State.setLifecycle_cfg (l : Lifecycle) : (s.setLifecycle l).cfg = s.cfg := rfl
@[simp] theorem State.setLifecycle_fb (l : Lifecycle) : (s.setLifecycle l).fb = s.fb := rfl
@[simp] theorem State.setLifecycle_lifecycle (l : Lifecycle) : (s.setLifecycle l).lifecycle = l := rfl
@[simp] theorem State.setLifecycle_busy (l : Lifecycle) : (s.setLifecycle l).busy = s.busy := rfl
@[simp] theorem State.setLifecycle_result (l : Lifecycle) : (s.setLifecycle l).result = s.result := rfl
@[simp] theorem State.setLifecycle_stIdx (l : Lifecycle) : (s.setLifecycle l).stIdx = s.stIdx := rfl
@[simp] theorem State.setLifecycle_stXfer (l : Lifecycle) : (s.setLifecycle l).stXfer = s.stXfer := rfl
@[simp] theorem State.setLifecycle_stPre (l : Lifecycle) : (s.setLifecycle l).stPre = s.stPre := rfl
@[simp] theorem State.setLifecycle_stIll (l : Lifecycle) : (s.setLifecycle l).stIll = s.stIll := rfl
@[simp] theorem State.setLifecycle_busOwned (l : Lifecycle) : (s.setLifecycle l).busOwned = s.busOwned := rfl
@[simp] theorem State.setLifecycle_pinMode (l : Lifecycle) : (s.setLifecycle l).pinMode = s.pinMode := rfl
@[simp] theorem State.setLifecycle_trace (l : Lifecycle) : (s.setLifecycle l).trace = s.trace := rfl
@[simp] theorem State.setLifecycle_pending (l : Lifecycle) : (s.setLifecycle l).pending = s.pending := rfl
@[simp] theorem State.setLifecycle_cmd (l : Lifecycle) : (s.setLifecycle l).cmd = s.cmd := rfl
@[simp] theorem State.setLifecycle_program (l : Lifecycle) : (s.setLifecycle l).program = s.program := rfl
@[simp] theorem State.setLifecycle_rst (l : Lifecycle) : (s.setLifecycle l).rst = s.rst := rfl
@[simp] theorem State.setLifecycle_script (l : Lifecycle) : (s.setLifecycle l).script = s.script := rfl
@[simp] theorem State.setLifecycle_draws (l : Lifecycle) : (s.setLifecycle l).draws = s.draws := rfl

@[simp] theorem State.setBusOwned_cfg (b : Bool) : (s.setBusOwned b).cfg = s.cfg := rfl
@[simp] theorem State.setBusOwned_fb (b : Bool) : (s.setBusOwned b).fb = s.fb := rfl
@[simp] theorem State.setBusOwned_lifecycle (b : Bool) : (s.setBusOwned b).lifecycle = s.lifecycle := rfl
@[simp] theorem State.setBusOwned_busy (b : Bool) : (s.setBusOwned b).busy = s.busy := rfl
@[simp] theorem State.setBusOwned_result (b : Bool) : (s.setBusOwned b).result = s.result := rfl
@[simp] theorem State.setBusOwned_stIdx (b : Bool) : (s.setBusOwned b).stIdx = s.stIdx := rfl
@[simp] theorem State.setBusOwned_stXfer (b : Bool) : (s.setBusOwned b).stXfer = s.stXfer := rfl
@[simp] theorem State.setBusOwned_stPre (b : Bool) : (s.setBusOwned b).stPre = s.stPre := rfl
@[simp] theorem State.setBusOwned_stIll (b : Bool) : (s.setBusOwned b).stIll = s.stIll := rfl
@[simp] theorem State.setBusOwned_busOwned (b : Bool) : (s.setBusOwned b).busOwned = b := rfl
@[simp] theorem State.setBusOwned_pinMode (b : Bool) : (s.setBusOwned b).pinMode = s.pinMode := rfl
@[simp] theorem State.setBusOwned_trace (b : Bool) : (s.setBusOwned b).trace = s.trace := rfl
@[simp] theorem State.setBusOwned_pending (b : Bool) : (s.setBusOwned b).pending = s.pending := rfl
@[simp] theorem State.setBusOwned_cmd (b : Bool) : (s.setBusOwned b).cmd = s.cmd := rfl
@[simp] theorem State.setBusOwned_program (b : Bool) : (s.setBusOwned b).program = s.program := rfl
@[simp] theorem State.setBusOwned_rst (b : Bool) : (s.setBusOwned b).rst = s.rst := rfl
@[simp] theorem State.setBusOwned_script (b : Bool) : (s.setBusOwned b).script = s.script := rfl
@[simp] theorem State.setBusOwned_draws (b : Bool) : (s.setBusOwned b).draws = s.draws := rfl

@[simp] theorem State.setPinMode_cfg (m : PinMode) : (s.setPinMode m).cfg = s.cfg := rfl
@[simp] theorem State.setPinMode_fb (m : PinMode) : (s.setPinMode m).fb = s.fb := rfl
@[simp] theorem State.setPinMode_lifecycle (m : PinMode) : (s.setPinMode m).lifecycle = s.lifecycle := rfl
@[simp] theorem State.setPinMode_busy (m : PinMode) : (s.setPinMode m).busy = s.busy := rfl
@[simp] theorem State.setPinMode_result (m : PinMode) : (s.setPinMode m).result = s.result := rfl
@[simp] theorem State.setPinMode_stIdx (m : PinMode) : (s.setPinMode m).stIdx = s.stIdx := rfl
@[simp] theorem State.setPinMode_stXfer (m : PinMode) : (s.setPinMode m).stXfer = s.stXfer := rfl
@[simp] theorem State.setPinMode_stPre (m : PinMode) : (s.setPinMode m).stPre = s.stPre := rfl
@[simp] theorem State.setPinMode_stIll (m : PinMode) : (s.setPinMode m).stIll = s.stIll := rfl
@[simp] theorem State.setPinMode_busOwned (m : PinMode) : (s.setPinMode m).busOwned = s.busOwned := rfl
@[simp] theorem State.setPinMode_pinMode (m : PinMode) : (s.setPinMode m).pinMode = m := rfl
@[simp] theorem State.setPinMode_trace (m : PinMode) : (s.setPinMode m).trace = s.trace := rfl
@[simp] theorem State.setPinMode_pending (m : PinMode) : (s.setPinMode m).pending = s.pending := rfl
@[simp] theorem State.setPinMode_cmd (m : PinMode) : (s.setPinMode m).cmd = s.cmd := rfl
@[simp] theorem State.setPinMode_program (m : PinMode) : (s.setPinMode m).program = s.program := rfl
@[simp] theorem State.setPinMode_rst (m : PinMode) : (s.setPinMode m).rst = s.rst := rfl
@[simp] theorem State.setPinMode_script (m : PinMode) : (s.setPinMode m).script = s.script := rfl
@[simp] theorem State.setPinMode_draws (m : PinMode) : (s.setPinMode m).draws = s.draws := rfl

@[simp] theorem State.setFb_cfg (m : Memory) : (s.setFb m).cfg = s.cfg := rfl
@[simp] theorem State.setFb_fb (m : Memory) : (s.setFb m).fb = m := rfl
@[simp] theorem State.setFb_lifecycle (m : Memory) : (s.setFb m).lifecycle = s.lifecycle := rfl
@[simp] theorem State.setFb_busy (m : Memory) : (s.setFb m).busy = s.busy := rfl
@[simp] theorem State.setFb_result (m : Memory) : (s.setFb m).result = s.result := rfl
@[simp] theorem State.setFb_stIdx (m : Memory) : (s.setFb m).stIdx = s.stIdx := rfl
@[simp] theorem State.setFb_stXfer (m : Memory) : (s.setFb m).stXfer = s.stXfer := rfl
@[simp] theorem State.setFb_stPre (m : Memory) : (s.setFb m).stPre = s.stPre := rfl
@[simp] theorem State.setFb_stIll (m : Memory) : (s.setFb m).stIll = s.stIll := rfl
@[simp] theorem State.setFb_busOwned (m : Memory) : (s.setFb m).busOwned = s.busOwned := rfl
@[simp] theorem State.setFb_pinMode (m : Memory) : (s.setFb m).pinMode = s.pinMode := rfl
@[simp] theorem State.setFb_trace (m : Memory) : (s.setFb m).trace = s.trace := rfl
@[simp] theorem State.setFb_pending (m : Memory) : (s.setFb m).pending = s.pending := rfl
@[simp] theorem State.setFb_cmd (m : Memory) : (s.setFb m).cmd = s.cmd := rfl
@[simp] theorem State.setFb_program (m : Memory) : (s.setFb m).program = s.program := rfl
@[simp] theorem State.setFb_rst (m : Memory) : (s.setFb m).rst = s.rst := rfl
@[simp] theorem State.setFb_script (m : Memory) : (s.setFb m).script = s.script := rfl
@[simp] theorem State.setFb_draws (m : Memory) : (s.setFb m).draws = s.draws := rfl

@[simp] theorem State.setPending_cfg (o : Outstanding) : (s.setPending o).cfg = s.cfg := rfl
@[simp] theorem State.setPending_fb (o : Outstanding) : (s.setPending o).fb = s.fb := rfl
@[simp] theorem State.setPending_lifecycle (o : Outstanding) : (s.setPending o).lifecycle = s.lifecycle := rfl
@[simp] theorem State.setPending_busy (o : Outstanding) : (s.setPending o).busy = s.busy := rfl
@[simp] theorem State.setPending_result (o : Outstanding) : (s.setPending o).result = s.result := rfl
@[simp] theorem State.setPending_stIdx (o : Outstanding) : (s.setPending o).stIdx = s.stIdx := rfl
@[simp] theorem State.setPending_stXfer (o : Outstanding) : (s.setPending o).stXfer = s.stXfer := rfl
@[simp] theorem State.setPending_stPre (o : Outstanding) : (s.setPending o).stPre = s.stPre := rfl
@[simp] theorem State.setPending_stIll (o : Outstanding) : (s.setPending o).stIll = s.stIll := rfl
@[simp] theorem State.setPending_busOwned (o : Outstanding) : (s.setPending o).busOwned = s.busOwned := rfl
@[simp] theorem State.setPending_pinMode (o : Outstanding) : (s.setPending o).pinMode = s.pinMode := rfl
@[simp] theorem State.setPending_trace (o : Outstanding) : (s.setPending o).trace = s.trace := rfl
@[simp] theorem State.setPending_pending (o : Outstanding) : (s.setPending o).pending = some o := rfl
@[simp] theorem State.setPending_cmd (o : Outstanding) : (s.setPending o).cmd = s.cmd := rfl
@[simp] theorem State.setPending_program (o : Outstanding) : (s.setPending o).program = s.program := rfl
@[simp] theorem State.setPending_rst (o : Outstanding) : (s.setPending o).rst = s.rst := rfl
@[simp] theorem State.setPending_script (o : Outstanding) : (s.setPending o).script = s.script := rfl
@[simp] theorem State.setPending_draws (o : Outstanding) : (s.setPending o).draws = s.draws := rfl

@[simp] theorem State.advance_cfg : (s.advance).cfg = s.cfg := rfl
@[simp] theorem State.advance_fb : (s.advance).fb = s.fb := rfl
@[simp] theorem State.advance_lifecycle : (s.advance).lifecycle = s.lifecycle := rfl
@[simp] theorem State.advance_busy : (s.advance).busy = s.busy := rfl
@[simp] theorem State.advance_result : (s.advance).result = s.result := rfl
@[simp] theorem State.advance_stIdx : (s.advance).stIdx = s.stIdx := rfl
@[simp] theorem State.advance_stXfer : (s.advance).stXfer = s.stXfer := rfl
@[simp] theorem State.advance_stPre : (s.advance).stPre = s.stPre := rfl
@[simp] theorem State.advance_stIll : (s.advance).stIll = s.stIll := rfl
@[simp] theorem State.advance_busOwned : (s.advance).busOwned = s.busOwned := rfl
@[simp] theorem State.advance_pinMode : (s.advance).pinMode = s.pinMode := rfl
@[simp] theorem State.advance_trace : (s.advance).trace = s.trace := rfl
@[simp] theorem State.advance_pending : (s.advance).pending = s.pending := rfl
@[simp] theorem State.advance_cmd : (s.advance).cmd = s.cmd := rfl
@[simp] theorem State.advance_program : (s.advance).program = s.program := rfl
@[simp] theorem State.advance_rst : (s.advance).rst = s.rst := rfl
@[simp] theorem State.advance_script : (s.advance).script = s.script := rfl
@[simp] theorem State.advance_draws : (s.advance).draws = s.draws + 1 := rfl

/-- R25: `raise` sets the code's own sticky bit and no other. -/
theorem State.raise_sticky (c d : ResultCode) : (s.raise c).sticky d = (s.sticky d || decide (c = d)) := by
  cases c <;> cases d <;> simp [State.raise, State.markSticky, State.sticky]

/-- `complete OK` leaves the sticky bits alone (R25). -/
@[simp] theorem State.complete_sticky (d : ResultCode) : s.complete.sticky d = s.sticky d := by
  cases d <;> rfl
@[simp] theorem State.takeDraw_sticky (c : ResultCode) : (s.takeDraw).sticky c = s.sticky c := by cases c <;> rfl
@[simp] theorem State.setPending_sticky (o : Outstanding) (c : ResultCode) : (s.setPending o).sticky c = s.sticky c := by cases c <;> rfl
@[simp] theorem State.record_sticky (r : Request) (a : Answer) (c : ResultCode) : (s.record r a).sticky c = s.sticky c := by cases c <;> rfl
@[simp] theorem State.setLifecycle_sticky (l : Lifecycle) (c : ResultCode) : (s.setLifecycle l).sticky c = s.sticky c := by cases c <;> rfl
@[simp] theorem State.setBusOwned_sticky (b : Bool) (c : ResultCode) : (s.setBusOwned b).sticky c = s.sticky c := by cases c <;> rfl
@[simp] theorem State.setPinMode_sticky (m : PinMode) (c : ResultCode) : (s.setPinMode m).sticky c = s.sticky c := by cases c <;> rfl
@[simp] theorem State.setFb_sticky (m : Memory) (c : ResultCode) : (s.setFb m).sticky c = s.sticky c := by cases c <;> rfl
@[simp] theorem State.accept_sticky (w : Cmd) (ws : List Cmd) (c : ResultCode) : (s.accept w ws).sticky c = s.sticky c := by cases c <;> rfl
@[simp] theorem State.dropCmd_sticky (c : ResultCode) : (s.dropCmd).sticky c = s.sticky c := by cases c <;> rfl
@[simp] theorem State.advance_sticky (c : ResultCode) : (s.advance).sticky c = s.sticky c := by cases c <;> rfl

end Sys2Proof.Machine
end

