-- ==== Sys2Proof/Laws/Memory.lean ====
section
/-! SUPPORT. The frame buffer as a canonical list: read after write, and that every memory operation keeps the form. -/

namespace Sys2Proof.Machine

/-- The canonical form as a proposition; `Memory.wf` decides it. -/
abbrev Memory.Canonical (m : Memory) : Prop :=
  List.Pairwise (fun c d => c.1 < d.1) m ∧ ∀ c ∈ m, c.2 ≠ Memory.unlisted

theorem Memory.wf_iff (m : Memory) : m.wf = true ↔ Memory.Canonical m := by
  unfold Memory.wf
  rw [Bool.and_eq_true, decide_eq_true_eq, List.all_eq_true]
  simp only [bne_iff_ne]

theorem Memory.read_of_lt (m : Memory) (a : Nat) (h : ∀ c ∈ m, a < c.1) : Memory.read m a = Memory.unlisted := by
  induction m with
  | nil => rfl
  | cons c m ih =>
    have hc : c.1 ≠ a := fun e => by have := h c (by simp); omega
    simp only [Memory.read, if_neg hc]
    exact ih fun d hd => h d (by simp [hd])

theorem Memory.mem_entry (a : Nat) (v : Byte) (c : Host.Cell) (h : c ∈ Memory.entry a v) :
    c = (a, v) ∧ v ≠ Memory.unlisted := by
  unfold Memory.entry at h
  split at h
  · simp at h
  · exact ⟨by simpa using h, ‹_›⟩

theorem Memory.read_entry_append (a : Nat) (v : Byte) (m : Memory) (x : Nat)
    (h : ∀ c ∈ m, a < c.1) :
    Memory.read (Memory.entry a v ++ m) x = if x = a then v else Memory.read m x := by
  unfold Memory.entry
  split
  · next hv =>
    by_cases hx : x = a
    · subst hx; simp [hv, Memory.read_of_lt m x h]
    · simp [hx]
  · by_cases hx : x = a
    · simp [Memory.read, hx]
    · simp [Memory.read, hx, Ne.symm hx]

theorem Memory.canonical_tail {c : Host.Cell} {m : Memory} (h : Memory.Canonical (c :: m)) : Memory.Canonical m :=
  ⟨(List.pairwise_cons.1 h.1).2, fun d hd => h.2 d (by simp [hd])⟩

/-- A read after a write gives the value written at that offset, and what was there before at any other. -/
theorem Memory.canonical_read_write (m : Memory) (a : Nat) (v : Byte) (x : Nat) (h : Memory.Canonical m) :
    Memory.read (Memory.write m a v) x = if x = a then v else Memory.read m x := by
  induction m with
  | nil => simpa [Memory.write] using Memory.read_entry_append a v [] x (by simp)
  | cons c m ih =>
    have hlt := (List.pairwise_cons.1 h.1).1
    simp only [Memory.write]
    split
    · next hac =>
      apply Memory.read_entry_append
      intro d hd
      rcases List.mem_cons.1 hd with rfl | hd
      · exact hac
      · exact hac.trans (hlt d hd)
    · split
      · next hac =>
        subst hac
        rw [Memory.read_entry_append c.1 v m x hlt]
        by_cases hx : x = c.1
        · simp [hx]
        · simp [hx, Memory.read, Ne.symm hx]
      · next h1 h2 =>
        simp only [Memory.read]
        by_cases hc : c.1 = x
        · simp [hc]; omega
        · simp [hc, ih (Memory.canonical_tail h)]

theorem Memory.mem_write (m : Memory) (a : Nat) (v : Byte) (c : Host.Cell) (h : c ∈ Memory.write m a v) :
    c ∈ m ∨ (c = (a, v) ∧ v ≠ Memory.unlisted) := by
  induction m with
  | nil => exact .inr (Memory.mem_entry a v c h)
  | cons d m ih =>
    simp only [Memory.write] at h
    split at h
    · rcases List.mem_append.1 h with h | h
      · exact .inr (Memory.mem_entry a v c h)
      · exact .inl h
    · split at h
      · rcases List.mem_append.1 h with h | h
        · exact .inr (Memory.mem_entry a v c h)
        · exact .inl (by simp [h])
      · rcases List.mem_cons.1 h with h | h
        · exact .inl (by simp [h])
        · rcases ih h with h | h
          · exact .inl (by simp [h])
          · exact .inr h

theorem Memory.canonical_entry_append (a : Nat) (v : Byte) (m : Memory) (hm : Memory.Canonical m) (h : ∀ c ∈ m, a < c.1) :
    Memory.Canonical (Memory.entry a v ++ m) := by
  unfold Memory.entry
  split
  · simpa using hm
  · next hv =>
    refine ⟨List.pairwise_cons.2 ⟨h, hm.1⟩, ?_⟩
    intro c hc
    rcases List.mem_cons.1 hc with rfl | hc
    · exact hv
    · exact hm.2 c hc

/-- A write keeps the canonical form. -/
theorem Memory.canonical_write (m : Memory) (a : Nat) (v : Byte) (h : Memory.Canonical m) : Memory.Canonical (Memory.write m a v) := by
  induction m with
  | nil => simpa [Memory.write] using Memory.canonical_entry_append a v [] h (by simp)
  | cons c m ih =>
    have hlt := (List.pairwise_cons.1 h.1).1
    simp only [Memory.write]
    split
    · next hac =>
      apply Memory.canonical_entry_append a v (c :: m) h
      intro d hd
      rcases List.mem_cons.1 hd with rfl | hd
      · exact hac
      · exact hac.trans (hlt d hd)
    · split
      · next hac => exact Memory.canonical_entry_append a v m (Memory.canonical_tail h) (by rw [hac]; exact hlt)
      · next h1 h2 =>
        have hw := ih (Memory.canonical_tail h)
        refine ⟨List.pairwise_cons.2 ⟨?_, hw.1⟩, ?_⟩
        · intro d hd
          rcases Memory.mem_write m a v d hd with hd | ⟨rfl, _⟩
          · exact hlt d hd
          · show c.1 < a
            omega
        · intro d hd
          rcases List.mem_cons.1 hd with rfl | hd
          · exact h.2 d (by simp)
          · exact hw.2 d hd

/-- Writing a byte sequence keeps the canonical form. -/
theorem Memory.canonical_writeBytes (ws : List Byte) (m : Memory) (base : Nat) (h : Memory.Canonical m) :
    Memory.Canonical (Memory.writeBytes m base ws) := by
  induction ws generalizing m base with
  | nil => exact h
  | cons v ws ih => exact ih _ _ (Memory.canonical_write m base v h)

/-- What a byte sequence written at `base` leaves: its own bytes there, every other byte as before. -/
theorem Memory.canonical_read_writeBytes (ws : List Byte) (m : Memory) (base x : Nat) (h : Memory.Canonical m) :
    Memory.read (Memory.writeBytes m base ws) x =
      if base ≤ x ∧ x < base + ws.length then ws.getD (x - base) 0 else Memory.read m x := by
  induction ws generalizing m base with
  | nil => simp [Memory.writeBytes]
  | cons v ws ih =>
    simp only [Memory.writeBytes]
    rw [ih _ _ (Memory.canonical_write m base v h), Memory.canonical_read_write m base v x h]
    by_cases h1 : base + 1 ≤ x ∧ x < base + 1 + ws.length
    · rw [if_pos h1, if_pos ⟨by omega, by simp only [List.length_cons]; omega⟩]
      rw [show x - base = (x - (base + 1)) + 1 by omega, List.getD_cons_succ]
    · rw [if_neg h1]
      by_cases h2 : x = base
      · subst h2; simp
      · rw [if_neg h2, if_neg]
        simp only [List.length_cons]
        omega

theorem Memory.mem_writeBytes (ws : List Byte) (m : Memory) (base : Nat) (c : Host.Cell)
    (h : c ∈ Memory.writeBytes m base ws) : c ∈ m ∨ (base ≤ c.1 ∧ c.1 < base + ws.length) := by
  induction ws generalizing m base with
  | nil => exact .inl h
  | cons v ws ih =>
    rcases ih _ _ h with h | h
    · rcases Memory.mem_write m base v c h with h | ⟨rfl, _⟩
      · exact .inl h
      · exact .inr (by simp)
    · exact .inr (by simp only [List.length_cons]; omega)

/-- A listed byte is what its offset reads as. -/
theorem Memory.canonical_read_of_mem (m : Memory) (c : Host.Cell) (h : Memory.Canonical m) (hc : c ∈ m) : Memory.read m c.1 = c.2 := by
  induction m with
  | nil => simp at hc
  | cons d m ih =>
    have hlt := (List.pairwise_cons.1 h.1).1
    rcases List.mem_cons.1 hc with rfl | hc
    · simp [Memory.read]
    · have := hlt c hc
      simp only [Memory.read]
      rw [if_neg (by omega)]
      exact ih (Memory.canonical_tail h) hc

/-- Offsets that no entry has read as the unlisted byte. -/
theorem Memory.read_of_not_mem (m : Memory) (a : Nat) (h : ∀ c ∈ m, c.1 ≠ a) : Memory.read m a = Memory.unlisted := by
  induction m with
  | nil => rfl
  | cons c m ih =>
    simp only [Memory.read, if_neg (h c (by simp))]
    exact ih fun d hd => h d (by simp [hd])

/-- Canonical memories that read the same everywhere are the same list. -/
theorem Memory.canonical_ext_of_read {m m' : Memory} (h : Memory.Canonical m) (h' : Memory.Canonical m')
    (heq : ∀ a, Memory.read m a = Memory.read m' a) : m = m' := by
  induction m generalizing m' with
  | nil =>
    cases m' with
    | nil => rfl
    | cons c m' =>
      have := heq c.1
      rw [Memory.canonical_read_of_mem _ c h' (by simp)] at this
      exact absurd this.symm (h'.2 c (by simp))
  | cons c m ih =>
    cases m' with
    | nil =>
      have := heq c.1
      rw [Memory.canonical_read_of_mem _ c h (by simp)] at this
      exact absurd this (h.2 c (by simp))
    | cons d m' =>
      have hc := (List.pairwise_cons.1 h.1).1
      have hd := (List.pairwise_cons.1 h'.1).1
      have hcd : c.1 = d.1 := by
        by_contra hne
        rcases Nat.lt_or_gt_of_ne hne with hlt | hlt
        · have e := heq c.1
          rw [Memory.canonical_read_of_mem _ c h (by simp), Memory.read_of_lt (d :: m') c.1] at e
          · exact h.2 c (by simp) e
          · intro x hx
            rcases List.mem_cons.1 hx with rfl | hx
            · exact hlt
            · exact hlt.trans (hd x hx)
        · have e := heq d.1
          rw [Memory.canonical_read_of_mem _ d h' (by simp), Memory.read_of_lt (c :: m) d.1] at e
          · exact h'.2 d (by simp) e.symm
          · intro x hx
            rcases List.mem_cons.1 hx with rfl | hx
            · exact hlt
            · exact hlt.trans (hc x hx)
      have hv : c.2 = d.2 := by
        have e := heq c.1
        rw [Memory.canonical_read_of_mem _ c h (by simp), hcd, Memory.canonical_read_of_mem _ d h' (by simp)] at e
        exact e
      have hcd' : c = d := Prod.ext hcd hv
      subst hcd'
      congr 1
      apply ih (Memory.canonical_tail h) (Memory.canonical_tail h')
      intro a
      have e := heq a
      simp only [Memory.read] at e
      by_cases ha : c.1 = a
      · subst ha
        rw [Memory.read_of_lt m c.1 hc, Memory.read_of_lt m' c.1 hd]
      · simpa [ha] using e

/-- Read after write (R11): the byte written at its offset, every other byte as before. -/
theorem Memory.read_write (m : Memory) (a : Nat) (v : Byte) (x : Nat) (h : m.wf = true) :
    (m.write a v).read x = if x = a then v else m.read x :=
  Memory.canonical_read_write m a v x ((Memory.wf_iff m).1 h)

/-- A write keeps the canonical form. -/
theorem Memory.wf_write (m : Memory) (a : Nat) (v : Byte) (h : m.wf = true) : (m.write a v).wf = true :=
  (Memory.wf_iff _).2 (Memory.canonical_write m a v ((Memory.wf_iff m).1 h))

/-- What a byte sequence written at `base` leaves. -/
theorem Memory.read_writeBytes (m : Memory) (base : Nat) (ws : List Byte) (x : Nat) (h : m.wf = true) :
    (m.writeBytes base ws).read x = if base ≤ x ∧ x < base + ws.length then ws.getD (x - base) 0 else m.read x :=
  Memory.canonical_read_writeBytes ws m base x ((Memory.wf_iff m).1 h)

/-- Writing a byte sequence keeps the canonical form. -/
theorem Memory.wf_writeBytes (m : Memory) (base : Nat) (ws : List Byte) (h : m.wf = true) :
    (m.writeBytes base ws).wf = true :=
  (Memory.wf_iff _).2 (Memory.canonical_writeBytes ws m base ((Memory.wf_iff m).1 h))

/-- Canonical memories that read the same everywhere are the same list. -/
theorem Memory.ext_of_read {m m' : Memory} (h : m.wf = true) (h' : m'.wf = true) (heq : ∀ a, m.read a = m'.read a) :
    m = m' :=
  Memory.canonical_ext_of_read ((Memory.wf_iff m).1 h) ((Memory.wf_iff m').1 h') heq

/-- The memory of a block right after reset is canonical. -/
theorem State.resetWith_memory (p : Params) : (State.resetWith p).fb.wf = true := rfl

end Sys2Proof.Machine
end

