-- ==== Sys2Proof/Laws/Ops.lean ====
section
/-! SUPPORT. What each shared operation can do, said once. -/

namespace Sys2Proof.Machine

/-- R8, as plain arithmetic. -/
theorem Params_legal_iff (p : Params) :
    p.legal = true ↔ 1 ≤ p.nLeds ∧ 24 * p.nLeds + p.resetLen ≤ 2 ^ 32 := by
  unfold Params.legal Params.fbLen
  rw [Bool.and_eq_true, decide_eq_true_eq, decide_eq_true_eq]

@[simp] theorem length_encodeByte (p : Params) (v : Byte) : (encodeByte p v).length = 8 := rfl

@[simp] theorem length_encodePixel (p : Params) (r g b : Byte) : (encodePixel p r g b).length = 24 := rfl

theorem encodeBit_cases (p : Params) (x : Bool) : encodeBit p x = p.pHi.byte ∨ encodeBit p x = p.pLo.byte := by
  cases x <;> simp [encodeBit]

@[simp] theorem length_frame (s : State) : s.frame.length = s.cfg.fbLen := by simp [State.frame]

/-! Draws. -/

theorem State.takeDraw_eq (s : State) : s.takeDraw = s.dropDraws 1 := rfl

/-- The draw `k` requests after `n` draws are used up is draw `n + k`. -/
theorem State.draw_dropDraws (s : State) (n k : Nat) : (s.dropDraws n).draw k = s.draw (n + k) := by
  unfold State.draw
  simp only [State.dropDraws_script, State.dropDraws_draws, List.getElem?_drop]
  cases s.script[n + k]? <;> simp [Nat.add_assoc]

theorem State.draw_congr (s t : State) (k : Nat) (hs : t.script = s.script) (hd : t.draws = s.draws) :
    t.draw k = s.draw k := by
  simp [State.draw, hs, hd]

/-- Without a wait, the answer to a request is there; for `Env.Acquire()` the bus must be granted. -/
theorem Draw_answers_iff (d : Draw) (r : Request) :
    d.answers r = true ↔ d.wait = 0 ∧ (r = .acquire → d.granted = true) := by
  cases r <;> simp [Draw.answers]

/-- R13: a request is answered at once and the command goes on, or it is pending and the command waits. -/
theorem State.request_cases (s : State) (r : Request) (next : State → Answer → State) :
    ((s.draw 0).answers r = true ∧
      s.request r next = next (s.takeDraw.record r ((s.draw 0).answer r)) ((s.draw 0).answer r)) ∨
    ((s.draw 0).answers r = false ∧ s.request r next = s.takeDraw.setPending ⟨r, s.draw 0⟩) := by
  unfold State.request
  cases h : (s.draw 0).answers r <;> simp

/-- A request whose answer is there at once: the event is recorded and the command goes on. -/
theorem State.request_now (s : State) (r : Request) (next : State → Answer → State) (h : (s.draw 0).answers r = true) :
    s.request r next = next (s.takeDraw.record r ((s.draw 0).answer r)) ((s.draw 0).answer r) := by
  rw [State.request, if_pos h]

/-- A request whose answer is not there: it is pending. -/
theorem State.request_later (s : State) (r : Request) (next : State → Answer → State) (h : (s.draw 0).answers r = false) :
    s.request r next = s.takeDraw.setPending ⟨r, s.draw 0⟩ := by
  rw [State.request, if_neg (by simp [h])]

/-- The next draw of a state that has used up `k` draws of `s` is draw `k` of `s`. -/
theorem State.draw_zero_of_dropped (s t : State) (k : Nat) (hs : t.script = s.script.drop k) (hd : t.draws = s.draws + k) :
    t.draw 0 = s.draw k := by
  rw [State.draw_congr (s.dropDraws k) t 0 hs hd, State.draw_dropDraws, Nat.add_zero]

/-! Slots. -/

/-- A slot of an LED of the strip lies inside `FB`, so storing it succeeds (R110). -/
theorem State.storeSlot_of_lt (s : State) (i : Nat) (w : List Byte) (hi : i < s.cfg.nLeds) (hw : w.length = 24) :
    s.storeSlot i w = some (s.setFb (s.fb.writeBytes (slotBase i) w)) := by
  unfold State.storeSlot
  rw [if_pos]
  simp only [slotBase, Params.fbLen, hw]
  omega

/-- The memory after slots `0 .. n - 1` are written (R107). -/
def fillSlots (m : Memory) (w : List Byte) : Nat → Memory
  | 0 => m
  | n + 1 => Memory.writeBytes (fillSlots m w n) (slotBase n) w

theorem State.storeSlots_of_le (s : State) (w : List Byte) (hw : w.length = 24) (n : Nat) (hn : n ≤ s.cfg.nLeds) :
    s.storeSlots w n = some (s.setFb (fillSlots s.fb w n)) := by
  induction n with
  | zero => rfl
  | succ n ih =>
    simp only [State.storeSlots, ih (by omega), Option.bind_some]
    rw [State.storeSlot_of_lt _ _ _ (by simpa using hn) hw]
    rfl

theorem wf_fillSlots (m : Memory) (w : List Byte) (n : Nat) (h : m.wf = true) : (fillSlots m w n).wf = true := by
  induction n with
  | zero => exact h
  | succ n ih => exact Memory.wf_writeBytes _ _ _ ih

/-- What filling the first `n` slots leaves: the slot's bytes below `24 * n`, every other byte as before. -/
theorem read_fillSlots (m : Memory) (w : List Byte) (hw : w.length = 24) (n x : Nat) (h : m.wf = true) :
    Memory.read (fillSlots m w n) x = if x < 24 * n then w.getD (x % 24) 0 else Memory.read m x := by
  induction n with
  | zero => simp [fillSlots]
  | succ n ih =>
    simp only [fillSlots]
    rw [Memory.read_writeBytes _ _ _ _ (wf_fillSlots m w n h), ih, hw]
    unfold slotBase
    by_cases h1 : 24 * n ≤ x ∧ x < 24 * n + 24
    · rw [if_pos h1, if_pos (by omega)]
      congr 1
      omega
    · rw [if_neg h1]
      by_cases h2 : x < 24 * n
      · rw [if_pos h2, if_pos (by omega)]
      · rw [if_neg h2, if_neg (by omega)]

theorem mem_fillSlots (m : Memory) (w : List Byte) (hw : w.length = 24) (n : Nat) (c : Host.Cell)
    (h : c ∈ fillSlots m w n) : c ∈ m ∨ c.1 < 24 * n := by
  induction n with
  | zero => exact .inl h
  | succ n ih =>
    rcases Memory.mem_writeBytes _ _ _ _ h with h | ⟨_, h⟩
    · rcases ih h with h | h
      · exact .inl h
      · exact .inr (by omega)
    · unfold slotBase at h
      exact .inr (by omega)

end Sys2Proof.Machine
end

