-- ==== Sys2Proof/Laws/PerInstr.lean ====
section
/-! SUPPORT. The one family of statements made per constructor of `Instr`: the word of a command carries the fixed bits of its own
row of spec/opcode_table.json. -/

namespace Sys2Proof.Laws

/-- The lowest eight bits of a command word are its opcode (R71). -/
theorem getLsbD_cmd64_low (idx : Word32) (b g r op : Byte) (n : Nat) (h : n < 8) :
    (cmd64 idx b g r op).getLsbD n = op.getLsbD n :=
  (BitVec.getLsbD_append (x := idx ++ b ++ g ++ r) (y := op)).trans (by simp [h])

/-- The highest 32 bits of a command word are its index field (R71). -/
theorem getLsbD_cmd64_high (idx : Word32) (b g r op : Byte) (n : Nat) (h : 32 ≤ n) :
    (cmd64 idx b g r op).getLsbD n = idx.getLsbD (n - 32) := by
  refine (BitVec.getLsbD_append (x := idx ++ b ++ g ++ r) (y := op)).trans ?_
  simp only [BitVec.getLsbD_append]
  rw [if_neg (by omega), if_neg (by omega), if_neg (by omega), if_neg (by omega)]
  exact congrArg idx.getLsbD (by omega)

/-- The word of `i` has the fixed bits of a row of the opcode table under `i`'s mnemonic. -/
def FixedBits.Statement (i : Instr) : Prop :=
  ∃ row ∈ opcodeTable, row.name = i.mnemonic ∧ row.admits (encode i) = true

theorem FixedBits.init : FixedBits.Statement .init :=
  ⟨⟨.INIT, 0x0000000000000001, 0xFFFFFFFFFFFFFFFF⟩, by decide, rfl, by decide⟩

theorem FixedBits.deinit : FixedBits.Statement .deinit :=
  ⟨⟨.DEINIT, 0x0000000000000002, 0xFFFFFFFFFFFFFFFF⟩, by decide, rfl, by decide⟩

theorem FixedBits.setPixel (idx : Word32) (r g b : Byte) : FixedBits.Statement (.setPixel idx r g b) := by
  refine ⟨⟨.SET_PIXEL, 0x0000000000000003, 0x00000000000000FF⟩, by decide, rfl, ?_⟩
  simp only [TableRow.admits, encode, beq_iff_eq]
  apply BitVec.eq_of_getLsbD_eq
  intro n hn
  rw [BitVec.getLsbD_and]
  by_cases h8 : n < 8
  · rw [getLsbD_cmd64_low _ _ _ _ _ _ h8]; interval_cases n <;> decide
  · have h7 : 8 ≤ n := by omega
    interval_cases n <;> simp

theorem FixedBits.setAll (r g b : Byte) : FixedBits.Statement (.setAll r g b) := by
  refine ⟨⟨.SET_ALL, 0x0000000000000004, 0xFFFFFFFF000000FF⟩, by decide, rfl, ?_⟩
  simp only [TableRow.admits, encode, beq_iff_eq]
  apply BitVec.eq_of_getLsbD_eq
  intro n hn
  rw [BitVec.getLsbD_and]
  by_cases h8 : n < 8
  · rw [getLsbD_cmd64_low _ _ _ _ _ _ h8]; interval_cases n <;> decide
  · by_cases h32 : 32 ≤ n
    · rw [getLsbD_cmd64_high _ _ _ _ _ _ h32]
      interval_cases n <;> decide
    · have h31 : n < 32 := by omega
      have h7 : 8 ≤ n := by omega
      interval_cases n <;> simp

theorem FixedBits.send : FixedBits.Statement .send :=
  ⟨⟨.SEND, 0x0000000000000005, 0xFFFFFFFFFFFFFFFF⟩, by decide, rfl, by decide⟩

end Sys2Proof.Laws
end

