-- ==== Sys2Proof/Laws/Step.lean ====
section
/-! SUPPORT. What the meanings and a step can do, said once: the spec lemma of each meaning, and the cases of a step. -/

namespace Sys2Proof.Machine

/-- The memory a pixel command leaves when it completes (R104, R107). -/
def State.painted (s : State) (m : Memory) : State := (s.setFb m).complete

theorem execSetPixel_eq (idx : Word32) (r g b : Byte) (s : State) :
    execSetPixel idx r g b s =
      if s.lifecycle ≠ .ready then .next (s.raise .preconditionViolated)
      else if s.cfg.nLeds ≤ idx.toNat then .next (s.raise .indexOutOfRange)
      else .next (s.painted (s.fb.writeBytes (slotBase idx.toNat) (encodePixel s.cfg r g b))) := by
  unfold execSetPixel
  split
  · rfl
  · split
    · rfl
    · next h => rw [State.storeSlot_of_lt s _ _ (by omega) (by simp)]; rfl

theorem execSetAll_eq (r g b : Byte) (s : State) :
    execSetAll r g b s =
      if s.lifecycle ≠ .ready then .next (s.raise .preconditionViolated)
      else .next (s.painted (fillSlots s.fb (encodePixel s.cfg r g b) s.cfg.nLeds)) := by
  unfold execSetAll
  split
  · rfl
  · rw [State.storeSlots_of_le s _ (by simp) _ (le_refl _)]; rfl

/-- To prove something of what a request leaves, prove it where the request waits and where the command goes on. -/
theorem State.request_elim {P : State → Prop} {s : State} {r : Request} {next : State → Answer → State}
    (later : P (s.takeDraw.setPending ⟨r, s.draw 0⟩))
    (now : P (next (s.takeDraw.record r ((s.draw 0).answer r)) ((s.draw 0).answer r))) : P (s.request r next) := by
  rcases State.request_cases s r next with ⟨_, e⟩ | ⟨_, e⟩ <;> rw [e] <;> assumption

/-- A waiting block waits one more step, or the answer is recorded and the command goes on. -/
theorem State.await_cases (s : State) (o : Outstanding) :
    (o.draw.tick.answers o.req = false ∧ s.await o = (s.setPending ⟨o.req, o.draw.tick⟩).advance) ∨
    (o.draw.tick.answers o.req = true ∧
      s.await o = resume (s.record o.req (o.draw.answer o.req)) o.req (o.draw.answer o.req)) := by
  unfold State.await
  split
  · exact .inr ⟨‹_›, rfl⟩
  · next h => exact .inl ⟨by simpa using h, rfl⟩

/-- A step of an idle block that is offered a word accepts it. -/
theorem step_of_idle (s : State) (w : Cmd) (rest : List Cmd) (h : s.idle) (hp : s.program = w :: rest) :
    step s = .next (s.accept w rest) := by
  obtain ⟨h1, h2, h3, h4, h5⟩ := h
  simp [step, h1, blockStep, h5, h2, h3, h4, idleStep, hp]

/-- A step of a block that has accepted a word runs it. -/
theorem step_of_holds (s : State) (w : Cmd) (h : s.holds w) : step s = runWord w s.dropCmd := by
  obtain ⟨h1, h2, h3, h4, h5⟩ := h
  simp [step, h1, blockStep, h5, h2, h3, h4]

/-- Accepting a word leaves an idle block holding it. -/
theorem State.idle.accept {s : State} (h : s.idle) (w : Cmd) (rest : List Cmd) : (s.accept w rest).holds w :=
  ⟨h.1, rfl, h.2.2.1, rfl, h.2.2.2.2⟩

/-- A step of a waiting block without a reset request is one step of waiting. -/
theorem step_of_waiting (s : State) (o : Outstanding) (hl : s.cfg.legal = true) (hb : s.busy = true)
    (hp : s.pending = some o) (hc : s.cmd = none) (hr : s.rst = false) : step s = .next (s.await o) := by
  simp [step, hl, blockStep, hr, hb, hp, hc]

/-- Running an accepted word: an illegal one, or a command. -/
theorem runWord_cases {w : Cmd} {s t : State} (h : runWord w s = .next t) :
    (∃ e, decode w = .error e ∧ t = s.raise .illegalCommand) ∨ ∃ i, decode w = .ok i ∧ exec i s = .next t := by
  unfold runWord at h
  split at h
  · next i hd => exact .inr ⟨i, hd, h⟩
  · next e hd => exact .inl ⟨e, hd, by cases h; rfl⟩

/-- The cases of a step that answers a next state: a reset, one more step of waiting, an idle block that is offered nothing or accepts a
word, or a block that runs the word it has accepted. -/
theorem step_cases {s t : State} (h : step s = .next t) :
    s.cfg.legal = true ∧
    ((s.rst = true ∧ t = s.resetBlock) ∨
     (s.rst = false ∧ s.busy = true ∧ s.cmd = none ∧ ∃ o, s.pending = some o ∧ t = s.await o) ∨
     (s.idle ∧ ((s.program = [] ∧ t = s) ∨ ∃ w rest, s.program = w :: rest ∧ t = s.accept w rest)) ∨
     ∃ w, s.holds w ∧
       ((∃ e, decode w = .error e ∧ t = s.dropCmd.raise .illegalCommand) ∨ ∃ i, decode w = .ok i ∧ exec i s.dropCmd = .next t)) := by
  unfold step at h
  split at h
  · next hl =>
    refine ⟨hl, ?_⟩
    unfold blockStep at h
    split at h
    · next hr => exact .inl ⟨hr, by cases h; rfl⟩
    · next hr =>
      have hr : s.rst = false := by simpa using hr
      split at h
      · next w hb hc hp => exact .inr (.inr (.inr ⟨w, ⟨hl, hb, hp, hc, hr⟩, runWord_cases h⟩))
      · next o hb hc hp => exact .inr (.inl ⟨hr, hb, hc, o, hp, by cases h; rfl⟩)
      · next hb hc hp =>
        refine .inr (.inr (.inl ⟨⟨hl, hb, hp, hc, hr⟩, ?_⟩))
        unfold idleStep at h
        split at h
        · next hw => exact .inl ⟨hw, by cases h; rfl⟩
        · next w rest hw => exact .inr ⟨w, rest, hw, by cases h; rfl⟩
      all_goals cases h
  · cases h

/-! Busy moments: what the ports' free values are taken at (log 9). -/

/-- From `s` to `t` the counter does not go back, the offered commands stay, and a busy `t` has a higher counter. -/
def State.Moved (s t : State) : Prop := s.draws ≤ t.draws ∧ t.program = s.program ∧ (t.busy = true → s.draws < t.draws)

theorem State.Moved.request {s v : State} (r : Request) (next : State → Answer → State) (hd : s.draws ≤ v.draws)
    (hp : v.program = s.program) (now : ∀ u a, s.draws ≤ u.draws → u.program = s.program → s.Moved (next u a)) :
    s.Moved (v.request r next) :=
  State.request_elim ⟨by simp; omega, by simpa using hp, fun _ => by simp; omega⟩ (now _ _ (by simp; omega) (by simpa using hp))

/-- A command that goes on after an answer ends, or waits at a higher counter. -/
theorem State.Moved.resume {s v : State} (r : Request) (a : Answer) (hd : s.draws ≤ v.draws) (hp : v.program = s.program) :
    s.Moved (Machine.resume v r a) := by
  have ends {u : State} (h1 : s.draws ≤ u.draws) (h2 : u.program = s.program) (h3 : u.busy = false) : s.Moved u :=
    ⟨h1, h2, by simp [h3]⟩
  have initLow (u : State) (b : Answer) (h1 : s.draws ≤ u.draws) (h2 : u.program = s.program) : s.Moved (afterInitLow u b) :=
    ends h1 h2 rfl
  have inert (u : State) (b : Answer) (h1 : s.draws ≤ u.draws) (h2 : u.program = s.program) : s.Moved (afterInert u b) :=
    ends h1 h2 rfl
  have initConfig (u : State) (b : Answer) (h1 : s.draws ≤ u.draws) (h2 : u.program = s.program) : s.Moved (afterInitConfig u b) :=
    .request _ _ (by simpa using h1) (by simpa using h2) initLow
  have deinitLow (u : State) (b : Answer) (h1 : s.draws ≤ u.draws) (h2 : u.program = s.program) : s.Moved (afterDeinitLow u b) :=
    .request _ _ h1 h2 inert
  cases r with
  | acquire => exact .request _ _ (by simpa using hd) (by simpa using hp) initConfig
  | release => exact .request _ _ (by simpa using hd) (by simpa using hp) deinitLow
  | pinCfg m _ _ =>
    cases m
    · exact inert v a hd hp
    · exact initConfig v a hd hp
  | pinWrite _ =>
    simp only [Machine.resume]
    split
    · exact initLow v a hd hp
    · exact deinitLow v a hd hp
  | transmit _ _ _ =>
    simp only [Machine.resume, afterTransmit]
    split <;> exact ends (by simpa using hd) (by simpa using hp) (by simp)

/-- A command ends in the step that runs it, or waits at a higher counter. -/
theorem State.Moved.exec {i : Instr} {s t : State} (h : Machine.exec i s = .next t) : s.Moved t := by
  have raised (c : ResultCode) : s.Moved (s.raise c) := ⟨by simp, by simp, by simp⟩
  have sends (r : Request) (next : State → Answer → State) (e : ∀ u a, next u a = Machine.resume u r a) : s.Moved (s.request r next) :=
    .request _ _ (le_refl _) rfl fun u a h1 h2 => e u a ▸ .resume r a h1 h2
  have painted (m : Memory) : s.Moved (s.painted m) := ⟨le_refl _, rfl, by simp [State.painted]⟩
  cases i with
  | init =>
    simp only [Machine.exec, execInit] at h
    split at h <;> cases h
    · exact raised _
    · exact sends _ _ fun _ _ => rfl
  | deinit =>
    simp only [Machine.exec, execDeinit] at h
    split at h <;> cases h
    · exact raised _
    · exact sends _ _ fun _ _ => rfl
  | send =>
    simp only [Machine.exec, execSend] at h
    split at h <;> cases h
    · exact raised _
    · exact sends _ _ fun _ _ => rfl
  | setAll r g b =>
    simp only [Machine.exec, execSetAll_eq] at h
    split at h <;> cases h
    · exact raised _
    · exact painted _
  | setPixel idx r g b =>
    simp only [Machine.exec, execSetPixel_eq] at h
    repeat' split at h
    all_goals cases h
    · exact raised _
    · exact raised _
    · exact painted _

/-- Along a run the counter never goes back and the offered commands never grow, and every step into a busy state moves one of the two: no
two busy states of one run share the numbers at which `State.statusPort` and `State.rdData` take their free values. -/
theorem step_moment {s t : State} (h : step s = .next t) :
    s.draws ≤ t.draws ∧ t.program.length ≤ s.program.length ∧
      (t.busy = true → s.draws < t.draws ∨ t.program.length < s.program.length) := by
  have of {u v : State} (m : u.Moved v) (hd : u.draws = s.draws) (hp : u.program = s.program) :
      s.draws ≤ v.draws ∧ v.program.length ≤ s.program.length ∧
        (v.busy = true → s.draws < v.draws ∨ v.program.length < s.program.length) := by
    obtain ⟨h1, h2, h3⟩ := m
    exact ⟨hd ▸ h1, by rw [h2, hp], fun hb => .inl (hd ▸ h3 hb)⟩
  obtain ⟨-, ⟨-, rfl⟩ | ⟨-, -, -, o, -, rfl⟩ | ⟨hi, ⟨-, rfl⟩ | ⟨w, rest, hp, rfl⟩⟩ | ⟨w, -, ⟨e, -, rfl⟩ | ⟨i, -, hx⟩⟩⟩ :=
    step_cases h
  · exact ⟨le_refl _, le_refl _, by simp⟩
  · rcases State.await_cases s o with ⟨-, e⟩ | ⟨-, e⟩ <;> rw [e]
    · exact ⟨by simp, by simp, fun _ => .inl (by simp)⟩
    · exact of (.resume (s := s) _ _ (by simp) (by simp)) rfl rfl
  · exact ⟨le_refl _, le_refl _, by simp [hi.2.1]⟩
  · exact ⟨le_refl _, by simp [hp], fun _ => .inr (by simp [hp])⟩
  · exact ⟨by simp, by simp, by simp⟩
  · exact of (.exec hx) rfl rfl

end Sys2Proof.Machine
end

