-- ==== Sys2Proof/Tests/Slice0.lean ====
section
/-! SUPPORT. Tests: what is ill formed is refused; words written out from the spec's encodings decode; one step of each command;
the vectors of 95_test_vectors.md; and, for every statement with hypotheses, a state and operands that meet them all. -/

namespace Sys2Proof.Tests

open Sys2Proof Sys2Proof.Machine

/-! ## What is ill formed is refused -/

/-- R76: an index past 32 bits. -/
theorem test_wf_index : (AsmLine.setPixel 4294967296 0 0 0).wellFormed = false := by decide
/-- R76: a colour value past 8 bits, in each of the three fields of both commands. -/
theorem test_wf_pixel_r : (AsmLine.setPixel 0 256 0 0).wellFormed = false := by decide
theorem test_wf_pixel_g : (AsmLine.setPixel 0 0 256 0).wellFormed = false := by decide
theorem test_wf_pixel_b : (AsmLine.setPixel 0 0 0 256).wellFormed = false := by decide
theorem test_wf_all_r : (AsmLine.setAll 256 0 0).wellFormed = false := by decide
theorem test_wf_all_g : (AsmLine.setAll 0 256 0).wellFormed = false := by decide
theorem test_wf_all_b : (AsmLine.setAll 0 0 256).wellFormed = false := by decide
/-- R78: a value past 64 bits. -/
theorem test_wf_word64 : (AsmLine.word64 18446744073709551616).wellFormed = false := by decide
/-- The largest operands are well formed, and an ill-formed line has no word. -/
theorem test_wf_largest : (AsmLine.setPixel 4294967295 255 255 255).wellFormed = true ∧
    (AsmLine.setPixel 4294967296 0 0 0).assemble = none := by decide

/-- R8: no LEDs; a buffer of `2^32 + 1` bytes; the largest legal one, `2^32` bytes. -/
theorem test_params_legal :
    (Params.legal ⟨0, 60, 500, 0, .ones5, .ones1, .up⟩) = false ∧
    (Params.legal ⟨1, 4294967273, 500, 0, .ones5, .ones1, .up⟩) = false ∧
    (Params.legal ⟨1, 4294967272, 500, 0, .ones5, .ones1, .up⟩) = true := by decide

/-- R8: patterns outside the two lists are refused (`0xFF`, `0xF0`, `0x00`, `0xF0`); `0xFC` and `0xE0` are taken. -/
theorem test_params_patterns :
    (RawParams.check ⟨20, 60, 500, 0, 0xFF, 0x80, .up⟩) = none ∧ (RawParams.check ⟨20, 60, 500, 0, 0xF0, 0x80, .up⟩) = none ∧
    (RawParams.check ⟨20, 60, 500, 0, 0xF8, 0x00, .up⟩) = none ∧ (RawParams.check ⟨20, 60, 500, 0, 0xF8, 0xF0, .up⟩) = none ∧
    (RawParams.check ⟨0, 60, 500, 0, 0xFC, 0xE0, .up⟩) = none ∧
    (RawParams.check ⟨20, 60, 500, 0, 0xFC, 0xE0, .up⟩) = some ⟨20, 60, 500, 0, .ones6, .ones3, .up⟩ := by decide

/-! ## Decoding (95_test_vectors.md 2.3, and words written out field by field from R70 to R72) -/

/-- `OP = 00000001`, everything above zero. -/
theorem test_decode_init : decode 0b0000000000000000000000000000000000000000000000000000000000000001 = .ok .init := by decide
theorem test_decode_deinit : decode 0b0000000000000000000000000000000000000000000000000000000000000010 = .ok .deinit := by decide
/-- `IDX = 5`, `B = 01010110`, `G = 00110100`, `R = 00010010`, `OP = 00000011`. -/
theorem test_decode_set_pixel :
    decode 0b0000000000000000000000000000010101010110001101000001001000000011 = .ok (.setPixel 5 0x12 0x34 0x56) := by decide
/-- `IDX = 0`, `B = 00000011`, `G = 00000010`, `R = 00000001`, `OP = 00000100`. -/
theorem test_decode_set_all :
    decode 0b0000000000000000000000000000000000000011000000100000000100000100 = .ok (.setAll 1 2 3) := by decide
theorem test_decode_send : decode 0b0000000000000000000000000000000000000000000000000000000000000101 = .ok .send := by decide
theorem test_decode_reserved : decode 0 = .error .reservedOpcode ∧ decode 6 = .error .reservedOpcode ∧
    decode 0xFF = .error .reservedOpcode := by decide
theorem test_decode_nonzero : decode 0x0000000000000101 = .error .nonzeroField ∧ decode 0x8000000000000002 = .error .nonzeroField ∧
    decode 0x0000000000000105 = .error .nonzeroField ∧ decode 0x0000000100000004 = .error .nonzeroField := by decide
theorem test_decode_table_word : decodeTableWord 64 0x000000000000FF03 = some (.setPixel 0 0xFF 0 0) ∧
    decodeTableWord 64 6 = none ∧ decodeTableWord 72 1 = none := by decide

/-- R76: lines of text, `set_pixel 5, 0x12, 0x34, 0x56` and `set_all 1, 2, 256` (refused) among them. -/
theorem test_text_set_pixel : assembleText
    ['s','e','t','_','p','i','x','e','l',' ','5',',',' ','0','x','1','2',',',' ','0','x','3','4',',',' ','0','x','5','6'] =
      some 0x0000000556341203 := by decide
theorem test_text_refused : assembleText ['s','e','t','_','a','l','l',' ','1',',','2',',','2','5','6'] = none ∧
    assembleText ['i','n','i','t',' ','3'] = none ∧ assembleText ['s','e','n','d'] = some 5 := by decide

/-! ## The encoder and the offsets (95_test_vectors.md W3, 2.1, 2.2) -/

/-- The illustrative binding of 92 D24, with two LEDs and four reset bytes, as programs P2 and P4 have them. -/
def small : Params := ⟨2, 4, 500, 0, .ones5, .ones1, .up⟩

theorem test_encode_byte : encodeByte small 0xA5 = [0xF8, 0x80, 0xF8, 0x80, 0x80, 0xF8, 0x80, 0xF8] ∧
    encodeByte small 0x7F = [0x80, 0xF8, 0xF8, 0xF8, 0xF8, 0xF8, 0xF8, 0xF8] := by decide
/-- `encode_pixel(0x12, 0x34, 0x56)` is `LLHHLHLL LLLHLLHL LHLHLHHL`. -/
theorem test_encode_pixel : encodePixel small 0x12 0x34 0x56 =
    [0x80, 0x80, 0xF8, 0xF8, 0x80, 0xF8, 0x80, 0x80, 0x80, 0x80, 0x80, 0xF8, 0x80, 0x80, 0xF8, 0x80,
     0x80, 0xF8, 0x80, 0xF8, 0x80, 0xF8, 0xF8, 0x80] := by decide
/-- The offsets of 2.2. -/
theorem test_locate : ∀ c ∈ [(0, Place.led 0 .green 7), (7, .led 0 .green 0), (8, .led 0 .red 7), (23, .led 0 .blue 0),
    (24, .led 1 .green 7), (479, .led 19 .blue 0), (480, .resetRegion), (539, .resetRegion), (540, .outside)],
    locate ⟨20, 60, 500, 0, .ones5, .ones1, .up⟩ c.1 = c.2 := by decide

/-! ## One step of each command -/

/-- What a next state shows; nothing for a fault or a refusal. -/
def seen {α : Type} (f : State → α) : Host.Outcome State Fault Refusal → Option α
  | .next t => some (f t)
  | .fault _ => none
  | .refused _ => none

/-- Answered at once, granted, transfer good. -/
def atOnce : Draw := ⟨0, true, true⟩
/-- Answered at once, transfer failed. -/
def failing : Draw := ⟨0, true, false⟩
/-- The bus is never granted. -/
def never : Draw := ⟨0, false, true⟩
/-- Answered after one more step. -/
def late : Draw := ⟨1, true, true⟩

/-- A block right after reset, whose platform answers at once. -/
def blank : State := { State.resetWith small with script := [atOnce, atOnce, atOnce] }

/-- The events of a completed `INIT` (R131). -/
def initEvents : List Event :=
  [⟨.acquire, .done⟩, ⟨.pinCfg .ppOut (some .up) (some .max), .done⟩, ⟨.pinWrite .low, .done⟩]

/-- A ready block with nothing written yet. -/
def ready : State :=
  { blank with lifecycle := .ready, busOwned := true, pinMode := .ppOut, trace := initEvents }

/-- The block with one word on its command port. -/
def offering (s : State) (w : Cmd) : State := { s with program := [w] }

/-- The block that has accepted one word and not yet run it. -/
def holding (s : State) (w : Cmd) : State := { s with busy := true, cmd := some w }

/-- R23: a block that is offered a word accepts it: `BUSY = 1`, `CMD_READY = 0`, nothing pending. -/
theorem test_accept : seen (fun t => (t.busy, t.cmdReady, t.pendingKind, t.program)) (step (offering ready 0x000000018001A503)) =
    some (true, false, none, []) := by decide

/-- P1's `init`: the three events, the bus held, `STATUS = 0x601`. -/
theorem test_init : seen (fun t => (t.trace, t.statusPort)) (step (holding blank 1)) = some (initEvents, 0x601) := by decide
/-- P5: the bus is never granted; `PENDING = ACQUIRE`, nothing in `TRACE`. -/
theorem test_init_stuck : seen (fun t => (t.busy, t.pendingKind, t.lifecycle, t.trace))
    (step (holding { blank with script := [never] } 1)) = some (true, some .ACQUIRE, .uninit, []) := by decide

/-- 2.5: `deinit` in `READY`. -/
theorem test_deinit : seen (fun t => (t.trace, t.statusPort)) (step (holding ready 2)) =
    some (initEvents ++ [⟨.release, .done⟩, ⟨.pinWrite .low, .done⟩, ⟨.pinCfg .inert none none, .done⟩], 0) := by decide
/-- 2.5: `deinit` after reset: `PRECONDITION_VIOLATED`, no request. -/
theorem test_deinit_uninit : seen (fun t => (t.trace, t.statusPort)) (step (holding blank 2)) = some ([], 0x8C) := by decide

/-- P2's third line: green `LLLLLLLH`, red `HLHLLHLH`, blue `HLLLLLLL` from offset 24 on, the reset region zero. -/
theorem test_set_pixel : seen (fun t => t.frame.drop 24) (step (holding ready 0x000000018001A503)) =
    some [0x80, 0x80, 0x80, 0x80, 0x80, 0x80, 0x80, 0xF8, 0xF8, 0x80, 0xF8, 0x80, 0x80, 0xF8, 0x80, 0xF8,
      0xF8, 0x80, 0x80, 0x80, 0x80, 0x80, 0x80, 0x80, 0, 0, 0, 0] := by decide
/-- 2.4: the first index out of range: nothing written, `ST_IDX` set. -/
theorem test_set_pixel_range : seen (fun t => (t.fb, t.statusPort)) (step (holding ready 0x00000002FFFFFF03)) =
    some ([], 0x625) := by decide

/-- P2's second line: every slot `L` ×16, `H` ×8; the reset region zero. -/
theorem test_set_all : seen State.frame (step (holding ready 0x00000000FF000004)) =
    some (List.replicate 16 0x80 ++ List.replicate 8 0xF8 ++ List.replicate 16 0x80 ++ List.replicate 8 0xF8 ++
      List.replicate 4 0) := by decide
/-- 2.4: `set_all 1, 1, 1` in `UNINIT`. -/
theorem test_set_all_uninit : seen (fun t => (t.fb, t.result)) (step (holding blank 0x0000000001010104)) =
    some ([], .preconditionViolated) := by decide

/-- R201: `send` after reset and `init` transmits `FB_LEN` zero bytes. -/
theorem test_send : seen (fun t => (t.trace.drop 3, t.statusPort)) (step (holding ready 5)) =
    some ([⟨.transmit (List.replicate 52 0) 52 500, .ok⟩], 0x601) := by decide
/-- P2's fifth line: `TRANSFER_FAILED`, the block stays `READY`: `STATUS = 0x649`. -/
theorem test_send_fail : seen State.statusPort (step (holding { ready with script := [failing] } 5)) = some 0x649 := by decide

/-- 2.4: `.word64 0x0000000100000004` in `UNINIT`: decode comes first. -/
theorem test_illegal_first : seen (fun t => (t.result, t.stIll, t.stPre)) (step (holding blank 0x0000000100000004)) =
    some (.illegalCommand, true, false) := by decide

/-- R35: a late answer: the block waits, then the command goes on. -/
def waiting : State := { ready with busy := true, pending := some ⟨.transmit (List.replicate 52 0) 52 500, late⟩ }
theorem test_late_answer : seen (fun t => (t.busy, t.result, t.trace.length)) (step waiting) = some (false, .ok, 4) := by decide

/-! ## Witnesses: for every statement with hypotheses, inputs that meet them together, at the ends of their ranges -/

/-- A block with parameters no other than `N_LEDS` and `RESET_LEN` given. -/
def sized (n z : Nat) : Params := ⟨n, z, 500, 0, .ones5, .ones1, .up⟩

/-- A ready block whose slot 0 is pure red (W2), slot 1 never written. -/
def redFb : Memory :=
  [(0, 0x80), (1, 0x80), (2, 0x80), (3, 0x80), (4, 0x80), (5, 0x80), (6, 0x80), (7, 0x80),
   (8, 0xF8), (9, 0xF8), (10, 0xF8), (11, 0xF8), (12, 0xF8), (13, 0xF8), (14, 0xF8), (15, 0xF8),
   (16, 0x80), (17, 0x80), (18, 0x80), (19, 0x80), (20, 0x80), (21, 0x80), (22, 0x80), (23, 0x80)]

def red : State := { ready with fb := redFb }

/-- The invariant holds of the ready block with one slot written. -/
theorem red_inv : red.Inv where
  legal := by decide
  memory := by decide
  inLeds := by decide
  slots := by
    intro i hi
    have h2 : i < 2 := hi
    interval_cases i
    · exact .inr ⟨0xFF, 0, 0, by decide⟩
    · exact .inl (by decide)
  handshake := by decide
  oneCommand := .inl rfl
  stage := ⟨rfl, rfl⟩
  sticky := by decide
  owned := by decide
  mode := by decide
  frames := by
    intro e he
    simp only [red, ready, initEvents, List.mem_cons, List.not_mem_nil, or_false] at he
    rcases he with rfl | rfl | rfl <;> exact trivial
  pendingFrame := by intro o ho; cases ho

/-- The invariant holds of a block that waits for the bus, the pin or the transmitter. -/
def busyAcquire (d : Draw) : State := { blank with busy := true, pending := some ⟨.acquire, d⟩ }

theorem busyAcquire_inv (d : Draw) : (busyAcquire d).Inv where
  legal := rfl
  memory := rfl
  inLeds := by intro c hc; cases hc
  slots := fun _ _ => .inl fun _ _ => rfl
  handshake := rfl
  oneCommand := .inl rfl
  stage := ⟨rfl, rfl, rfl⟩
  sticky := rfl
  owned := rfl
  mode := rfl
  frames := by intro e he; cases he
  pendingFrame := by intro o ho; cases ho; exact trivial

/-- The invariant holds of a block that waits for the transmitter. -/
theorem waiting_inv : waiting.Inv where
  legal := by decide
  memory := by decide
  inLeds := by intro c hc; cases hc
  slots := fun _ _ => .inl fun _ _ => rfl
  handshake := rfl
  oneCommand := .inl rfl
  stage := ⟨rfl, rfl, rfl⟩
  sticky := rfl
  owned := rfl
  mode := rfl
  frames := by
    intro e he
    simp only [waiting, ready, initEvents, List.mem_cons, List.not_mem_nil, or_false] at he
    rcases he with rfl | rfl | rfl <;> exact trivial
  pendingFrame := by
    intro o ho; cases ho
    exact ⟨by decide, by decide, by decide, by decide⟩

/-- A ready block whose last command was a good `SEND`. -/
def sent : State := { ready with trace := initEvents ++ [⟨.transmit (List.replicate 52 0) 52 500, .ok⟩] }

theorem sent_inv : sent.Inv where
  legal := by decide
  memory := by decide
  inLeds := by intro c hc; cases hc
  slots := fun _ _ => .inl fun _ _ => rfl
  handshake := rfl
  oneCommand := .inl rfl
  stage := ⟨rfl, rfl⟩
  sticky := rfl
  owned := by decide
  mode := by decide
  frames := by
    intro e he
    simp only [sent, initEvents, List.cons_append, List.nil_append, List.mem_cons, List.not_mem_nil, or_false] at he
    rcases he with rfl | rfl | rfl | rfl
    · exact trivial
    · exact trivial
    · exact trivial
    · exact ⟨by decide, by decide, by decide, by decide⟩
  pendingFrame := by intro o ho; cases ho


theorem runs_of_seen {α : Type} {f : State → α} {s : State} {x : α} (h : seen f (step s) = some x) :
    ∃ t, step s = .next t ∧ f t = x := by
  cases hs : step s with
  | next t => rw [hs] at h; exact ⟨t, rfl, Option.some.inj h⟩
  | fault e => rw [hs] at h; cases h
  | refused e => rw [hs] at h; cases h

theorem idle_ready (w : Cmd) : (offering ready w).idle := ⟨rfl, rfl, rfl, rfl, rfl⟩
theorem idle_blank (w : Cmd) : (offering blank w).idle := ⟨rfl, rfl, rfl, rfl, rfl⟩

/-- The invariant holds of a block that has accepted a command and not yet run it. -/
theorem holding_inv (w : Cmd) : (holding blank w).Inv where
  legal := rfl
  memory := rfl
  inLeds := by intro c hc; cases hc
  slots := fun _ _ => .inl fun _ _ => rfl
  handshake := rfl
  oneCommand := .inr rfl
  stage := ⟨rfl, rfl⟩
  sticky := rfl
  owned := rfl
  mode := rfl
  frames := by intro e he; cases he
  pendingFrame := by intro o ho; cases ho

theorem witness_ParametersOutsideR8AreRefused :
    (∃ p, (RawParams.check ⟨1, 4294967272, 0, 0, 0xFE, 0xC0, .down⟩) = some p) ∧
    (∃ s : State, ¬(1 ≤ s.cfg.nLeds ∧ 24 * s.cfg.nLeds + s.cfg.resetLen ≤ 2 ^ 32) ∧ s.cfg.nLeds = 0) ∧
    ∃ s : State, ¬(1 ≤ s.cfg.nLeds ∧ 24 * s.cfg.nLeds + s.cfg.resetLen ≤ 2 ^ 32) ∧ s.cfg.fbLen = 2 ^ 32 + 1 :=
  ⟨⟨⟨1, 4294967272, 0, 0, .ones7, .ones2, .down⟩, by decide⟩, ⟨State.resetWith (sized 0 0), by decide⟩,
    ⟨State.resetWith (sized 1 4294967273), by decide⟩⟩

theorem witness_DerivedSizes : Config.params.nLeds = 20 ∧ Config.params.resetLen = 60 := ⟨rfl, rfl⟩

theorem witness_ResetAbandonsCommand : ∃ s : State, s.cfg.legal = true ∧ s.rst = true ∧ s.pendingKind = some .TRANSMIT :=
  ⟨{ waiting with rst := true }, by decide⟩

theorem witness_EncodeOfDecode : decode 0x00000003FF80A503 = .ok (.setPixel 3 0xA5 0x80 0xFF) := by decide

theorem witness_OpcodeTableDecidesCommand : ∀ row ∈ opcodeTable, row.admits row.pattern = true := by decide

/-- The largest operands and the first past each bound. -/
theorem witness_AssembledLinesDecode :
    ((AsmLine.setPixel 4294967295 255 255 255).assemble = some 0xFFFFFFFFFFFFFF03 ∧
      (AsmLine.setPixel 4294967295 255 255 255).instr? = some (.setPixel 0xFFFFFFFF 0xFF 0xFF 0xFF)) ∧
    (AsmLine.setPixel 4294967296 0 0 0).assemble.isSome = false ∧ (AsmLine.setAll 255 255 255).assemble.isSome = true ∧
    (AsmLine.setAll 255 255 256).assemble.isSome = false ∧
    (AsmLine.word64 18446744073709551615).assemble = some 0xFFFFFFFFFFFFFFFF ∧
    (AsmLine.word64 18446744073709551616).assemble.isSome = false := by decide

theorem witness_EncodeByteIsMsbFirst : (encodeByte small 0x80)[0]? = some 0xF8 ∧ (encodeByte small 0x80)[7]? = some 0x80 := by
  decide

theorem witness_EncodePixelIsGreenRedBlue : ∀ j ∈ [0, 7, 8, 15, 16, 23], j < 24 := by decide

theorem witness_AlphabetIsClosedAndInjective :
    (0x80 : Byte) ∈ encodePixel small 0 0 0 ∧ (7 : Nat) < 8 ∧ encodeByte small 3 = encodeByte small 3 := by decide

/-- The ends of the three ranges of offsets, with 20 LEDs and 60 reset bytes. -/
theorem witness_OffsetsReadBack :
    (19 < (sized 20 60).nLeds ∧ 7 ≤ 7) ∧ 479 < (sized 20 60).ledLen ∧
    ((sized 20 60).ledLen ≤ 480 ∧ 539 < (sized 20 60).fbLen) ∧ (sized 20 60).fbLen ≤ 540 := by decide

/-- `SET_PIXEL` in `UNINIT`; in `READY` at the first index out of range, at the largest one, and at the last index in range. -/
theorem witness_SetPixelMeaning :
    blank.lifecycle = .uninit ∧
    (red.lifecycle = .ready ∧ red.cfg.nLeds ≤ (2 : Word32).toNat ∧ red.cfg.nLeds ≤ (0xFFFFFFFF : Word32).toNat) ∧
    (red.lifecycle = .ready ∧ (1 : Word32).toNat < red.cfg.nLeds ∧ red.fb.wf = true) := by decide

theorem witness_SetPixelOverwrites :
    red.fb.wf = true ∧ ready.fb.wf = true ∧ red.cfg = ready.cfg ∧ red.lifecycle = .ready ∧ ready.lifecycle = .ready ∧
    (1 : Word32).toNat < red.cfg.nLeds ∧ red.fb ≠ ready.fb := by decide

theorem witness_SetAllMeaning :
    blank.lifecycle = .uninit ∧ red.lifecycle = .ready ∧ red.fb.wf = true ∧ 1 < red.cfg.nLeds ∧ red.cfg.ledLen ≤ 48 := by decide

theorem witness_SetAllIsEverySetPixel :
    (red.cfg.legal = true ∧ red.lifecycle = .ready) ∧ (blank.cfg.legal = true ∧ blank.lifecycle = .uninit ∧ 1 < blank.cfg.nLeds) := by
  decide

theorem witness_WrongLifecycleRaises :
    ready.lifecycle ≠ needs .init ∧ blank.lifecycle ≠ needs .deinit ∧ blank.lifecycle ≠ needs (.setPixel 0 0 0 0) ∧
    blank.lifecycle ≠ needs (.setAll 0 0 0) ∧ blank.lifecycle ≠ needs .send := by decide

/-- One illegal word for each clause: opcode `0x00`, opcodes `0x06` and `0xFF`, `INIT`, `DEINIT`, `SEND` and `SET_ALL` with a bit
of a must-be-zero field set. -/
theorem witness_IllegalWordsRaise : ∀ w ∈ ([0, 6, 0xFF, 0x101, 0x8000000000000002, 0x105, 0x100000004] : List Cmd),
    ((offering ready w).idle ∧ (offering ready w).program = w :: []) ∧
    (w.toNat % 256 = 0 ∨ 6 ≤ w.toNat % 256 ∨
      ((w.toNat % 256 = 1 ∨ w.toNat % 256 = 2 ∨ w.toNat % 256 = 5) ∧ w.toNat / 2 ^ 8 ≠ 0) ∨
      (w.toNat % 256 = 4 ∧ w.toNat / 2 ^ 32 ≠ 0)) := by
  intro w hw
  refine ⟨⟨idle_ready w, rfl⟩, ?_⟩
  simp only [List.mem_cons, List.not_mem_nil, or_false] at hw
  rcases hw with rfl | rfl | rfl | rfl | rfl | rfl | rfl <;> simp

theorem witness_ErrorPriority :
    ((offering ready 0).idle ∧ (offering ready 0).program = 0 :: [] ∧ decode 0 = .error .reservedOpcode) ∧
    ((offering blank 5).idle ∧ (offering blank 5).program = 5 :: [] ∧ decode 5 = .ok .send) ∧
    ((offering ready 0x203).idle ∧ (offering ready 0x203).program = 0x203 :: []) :=
  ⟨⟨idle_ready 0, rfl, by decide⟩, ⟨idle_blank 5, rfl, by decide⟩, idle_ready 0x203, rfl⟩

/-- A command that ends with an error in its first step; a `SEND` that waits one step and then fails; and the step in which it ends. -/
theorem witness_ErrorsArePrecise :
    ((holding ready 0x0000000200000003).holds 0x0000000200000003 ∧
      ∃ t, Reaches 1 (holding ready 0x0000000200000003) t ∧ t.busy = false ∧ t.result ≠ .ok) ∧
    (∃ s t : State, s.holds 5 ∧ Reaches 2 s t ∧ (∀ m < 2, ∀ u, Reaches m s u → u.busy = true) ∧ t.busy = false ∧ t.result ≠ .ok) ∧
    ∃ t, step (holding ready 1) = .next t ∧ (t.busy, t.result) = (false, .preconditionViolated) := by
  refine ⟨⟨⟨rfl, rfl, rfl, rfl, rfl⟩, ?_⟩, ?_, runs_of_seen (by decide)⟩
  · obtain ⟨t, ht, h⟩ := runs_of_seen (f := fun t => (t.busy, decide (t.result = .ok))) (s := holding ready 0x0000000200000003)
      (x := (false, false)) (by decide)
    simp only [Prod.mk.injEq, decide_eq_false_iff_not] at h
    exact ⟨t, ⟨t, ht, rfl⟩, h.1, h.2⟩
  · have h1 : step (holding { ready with script := [⟨1, true, false⟩] } 5) =
        .next { ready with busy := true, draws := 1, script := [], pending := some ⟨.transmit (List.replicate 52 0) 52 500, ⟨1, true, false⟩⟩ } := by rfl
    obtain ⟨t, ht, h⟩ := runs_of_seen (f := fun t => (t.busy, decide (t.result = .ok)))
      (s := { ready with busy := true, draws := 1, script := [], pending := some ⟨.transmit (List.replicate 52 0) 52 500, ⟨1, true, false⟩⟩ })
      (x := (false, false)) (by decide)
    simp only [Prod.mk.injEq, decide_eq_false_iff_not] at h
    refine ⟨_, t, ⟨rfl, rfl, rfl, rfl, rfl⟩, ⟨_, h1, t, ht, rfl⟩, ?_, h.1, h.2⟩
    intro m hm u hu
    interval_cases m
    · cases hu; rfl
    · obtain ⟨v, hv, rfl⟩ := hu
      rw [h1] at hv; cases hv; rfl

/-- A sticky bit that stays, and one that a step sets. -/
theorem witness_OnlyResetClearsStickyBits :
    (∃ t, step (holding { ready with stIdx := true } 5) = .next t ∧ (t.stIdx, t.result) = (true, .ok)) ∧
    ∃ t, step (holding ready 1) = .next t ∧ (t.stPre, ready.stPre) = (true, false) :=
  ⟨runs_of_seen (by decide), runs_of_seen (by decide)⟩

theorem prompt_blank : blank.prompt 3 := by unfold State.prompt; decide
theorem prompt_ready : ready.prompt 3 := by unfold State.prompt; decide

theorem witness_InitMeaning :
    ready.lifecycle = .ready ∧ (blank.lifecycle = .uninit ∧ blank.prompt 3 ∧ (blank.draw 0).granted = true) ∧
    (∃ s : State, s.lifecycle = .uninit ∧ (s.draw 0).granted = false) ∧
    ∃ s : State, s.lifecycle = .uninit ∧ (s.draw 0).wait ≠ 0 ∧ (s.draw 0).granted = true :=
  ⟨rfl, ⟨rfl, prompt_blank, by decide⟩, ⟨{ blank with script := [never] }, by decide⟩, { blank with script := [late] }, by decide⟩

theorem witness_DeinitMeaning : blank.lifecycle = .uninit ∧ ready.lifecycle = .ready ∧ ready.prompt 3 :=
  ⟨rfl, rfl, prompt_ready⟩

theorem witness_SendMeaning :
    blank.lifecycle = .uninit ∧ (ready.lifecycle = .ready ∧ ready.prompt 1 ∧ (ready.draw 0).ok = true) ∧
    ∃ s : State, s.lifecycle = .ready ∧ s.prompt 1 ∧ (s.draw 0).ok = false :=
  ⟨rfl, ⟨rfl, by unfold State.prompt; decide, by decide⟩, { ready with script := [failing] }, rfl,
    by unfold State.prompt; decide, by decide⟩

theorem witness_BusCommandsKeepFrameBuffer :
    (∃ t, seen id (exec .send red) = some t) ∧ (∃ t, step waiting = .next t ∧ (waiting.rst, waiting.pendingKind) = (false, some .TRANSMIT)) :=
  ⟨⟨_, rfl⟩, runs_of_seen (f := fun _ => (waiting.rst, waiting.pendingKind)) (by decide)⟩

theorem witness_DeinitAlwaysCompletes :
    ((offering blank 2).idle ∧ (offering blank 2).program = 0x0000000000000002 :: [] ∧ (offering blank 2).lifecycle = .uninit) ∧
    ((offering ready 2).idle ∧ (offering ready 2).program = 0x0000000000000002 :: [] ∧ (offering ready 2).lifecycle = .ready) :=
  ⟨⟨idle_blank 2, rfl, rfl⟩, idle_ready 2, rfl, rfl⟩

theorem witness_SendTransmitsExactlyOnce :
    ((offering blank 5).idle ∧ (offering blank 5).program = 0x0000000000000005 :: [] ∧ (offering blank 5).lifecycle = .uninit) ∧
    ((offering ready 5).idle ∧ (offering ready 5).program = 0x0000000000000005 :: [] ∧ (offering ready 5).lifecycle = .ready) :=
  ⟨⟨idle_blank 5, rfl, rfl⟩, idle_ready 5, rfl, rfl⟩

theorem witness_InitCompletesWhenGranted :
    ((offering ready 1).idle ∧ (offering ready 1).program = 0x0000000000000001 :: [] ∧ (offering ready 1).lifecycle = .ready) ∧
    ((offering blank 1).idle ∧ (offering blank 1).program = 0x0000000000000001 :: [] ∧ (offering blank 1).lifecycle = .uninit ∧
      ((offering blank 1).draw 0).granted = true) ∧
    ∃ s t : State, s.idle ∧ s.program = 0x0000000000000001 :: [] ∧ s.lifecycle = .uninit ∧ (s.draw 0).granted = false ∧
      Reaches (0 + 1) s t := by
  refine ⟨⟨idle_ready 1, rfl, rfl⟩, ⟨idle_blank 1, rfl, rfl, by decide⟩, ?_⟩
  obtain ⟨t, ht, _⟩ := runs_of_seen (f := State.busy) (s := { blank with script := [never], program := [1] }) (x := true) (by decide)
  exact ⟨_, t, ⟨rfl, rfl, rfl, rfl, rfl⟩, rfl, rfl, by decide, t, ht, rfl⟩

theorem witness_InitWaitsForeverWithoutTheBus :
    ∃ s : State, s.idle ∧ s.lifecycle = .uninit ∧ s.program = 0x0000000000000001 :: [5] ∧ (s.draw 0).granted = false :=
  ⟨{ blank with script := [never], program := [1, 5] }, ⟨by decide, rfl, rfl, rfl, rfl⟩, rfl, rfl, by decide⟩

/-- An `INIT` that waits for a bus it will be granted, a `SEND` that waits for the transmitter, and an `INIT` that has not run yet. -/
theorem witness_CommandsInProgressEnd :
    ((busyAcquire late).Inv ∧ (busyAcquire late).rst = false ∧ (busyAcquire late).busy = true ∧
      (∀ o, (busyAcquire late).pending = some o → o.req = .acquire → o.draw.granted = true) ∧
      ∀ w, (busyAcquire late).cmd = some w → decode w = .ok .init → (busyAcquire late).lifecycle = .uninit →
        ((busyAcquire late).draw 0).granted = true) ∧
    (waiting.Inv ∧ waiting.rst = false ∧ waiting.busy = true ∧
      (∀ o, waiting.pending = some o → o.req = .acquire → o.draw.granted = true) ∧
      ∀ w, waiting.cmd = some w → decode w = .ok .init → waiting.lifecycle = .uninit → (waiting.draw 0).granted = true) ∧
    ((holding blank 1).Inv ∧ (holding blank 1).rst = false ∧ (holding blank 1).busy = true ∧
      (∀ o, (holding blank 1).pending = some o → o.req = .acquire → o.draw.granted = true) ∧
      ∀ w, (holding blank 1).cmd = some w → decode w = .ok .init → (holding blank 1).lifecycle = .uninit →
        ((holding blank 1).draw 0).granted = true) := by
  refine ⟨⟨busyAcquire_inv late, rfl, rfl, ?_, ?_⟩, ⟨waiting_inv, rfl, rfl, ?_, ?_⟩, ⟨holding_inv 1, rfl, rfl, ?_, ?_⟩⟩
  · intro o ho _; cases ho; rfl
  · intro w hw; cases hw
  · intro o ho _; cases ho; rfl
  · intro w hw; cases hw
  · intro o ho; cases ho
  · intro _ _ _ _; decide

theorem witness_FrameGoesOutInOrder :
    (red.lifecycle = .ready ∧ red.prompt 1) ∧ 0 < red.cfg.fbLen ∧ 51 < red.cfg.fbLen ∧ (7 : Nat) < 8 :=
  ⟨⟨rfl, by unfold State.prompt; decide⟩, by decide⟩

theorem witness_FailedTransferSendsAnyLeadingPart :
    ([] : List Byte) <+: [0xF8, 0x80] ∧ ([0xF8] : List Byte) <+: [0xF8, 0x80] ∧ ([0xF8, 0x80] : List Byte) <+: [0xF8, 0x80] := by decide

theorem witness_FramesEndWithResetRegion : sent.Inv ∧ ∃ e ∈ sent.trace, isTransmit e.req = true ∧ e.ans = .ok :=
  ⟨sent_inv, ⟨.transmit (List.replicate 52 0) 52 500, .ok⟩, by decide⟩

/-- The last slot of a block of which only slot 0 was written. -/
theorem witness_UnwrittenSlotsAreIdleBytes :
    (1 < small.nLeds ∧ (23 : Nat) < 24) ∧
    (red.lifecycle = .ready ∧ red.prompt 1 ∧ 1 < red.cfg.nLeds ∧ ∀ j < 24, red.fbByte (slotBase 1 + j) = 0x00) :=
  ⟨by decide, rfl, by unfold State.prompt; decide, by decide⟩

/-- Idle blocks with each of the five results, and a busy one. -/
theorem witness_StatusWordLayout :
    (∀ c ∈ [ResultCode.ok, .indexOutOfRange, .transferFailed, .preconditionViolated, .illegalCommand],
      ({ ready with result := c } : State).busy = false) ∧ waiting.busy = true := ⟨fun _ _ => rfl, rfl⟩

/-- The read port at the last address of `FB` and at the first past it. -/
theorem witness_ReadPortShowsFrameBuffer :
    red.busy = false ∧ (51 : Word32).toNat < red.cfg.fbLen ∧ ¬(52 : Word32).toNat < red.cfg.fbLen := by decide

/-- A reset that clears a byte, and a pixel command that writes the last byte of the LED part. -/
theorem witness_OnlyResetAndPixelCommandsWriteFb :
    (∃ t, step { red with rst := true } = .next t ∧ (red.fb.wf, red.fbByte 8, t.fbByte 8) = (true, 0xF8, 0x00)) ∧
    ∃ t, step (holding red 0x0000000000000004) = .next t ∧ (red.fb.wf, red.fbByte 47, t.fbByte 47) = (true, 0x00, 0x80) :=
  ⟨runs_of_seen (f := fun t => (red.fb.wf, red.fbByte 8, t.fbByte 8)) (by decide),
    runs_of_seen (f := fun t => (red.fb.wf, red.fbByte 47, t.fbByte 47)) (by decide)⟩

/-- `INIT` and `DEINIT` that run in one step, and the ends of both that waited, in each of their waiting stages. -/
theorem witness_OnlyInitAndDeinitChangeState :
    (∃ t, step (holding blank 1) = .next t ∧ t.lifecycle = .ready) ∧ (∃ t, step (holding ready 2) = .next t ∧ t.lifecycle = .uninit) ∧
    (∀ r ∈ [Request.acquire, .pinCfg .ppOut (some .up) (some .max), .pinWrite .low],
      ∃ t, step { busyAcquire late with pending := some ⟨r, late⟩ } = .next t ∧ t.lifecycle = .ready) ∧
    ∀ r ∈ [Request.release, .pinWrite .low, .pinCfg .inert none none],
      ∃ t, step { ready with busy := true, pending := some ⟨r, late⟩ } = .next t ∧ t.lifecycle = .uninit := by
  refine ⟨runs_of_seen (by decide), runs_of_seen (by decide), fun r hr => ?_, fun r hr => ?_⟩ <;>
  · simp only [List.mem_cons, List.not_mem_nil, or_false] at hr
    rcases hr with rfl | rfl | rfl <;> exact runs_of_seen (by decide)

theorem witness_CommandsAreTakenOneAtATime :
    (∃ t, step { waiting with program := [1] } = .next t ∧ t.program = [1]) ∧
    ∃ t, step { ready with program := [5, 1] } = .next t ∧ t.program = [1] :=
  ⟨runs_of_seen (by decide), runs_of_seen (by decide)⟩

/-- A block that accepts a word, one that ends a command in the step that runs it, and one that goes on waiting. -/
theorem witness_BusyFromAcceptanceToEnd :
    ((offering ready 5).idle ∧ (offering ready 5).program = 5 :: []) ∧
    (∃ t, step (offering ready 5) = .next t ∧ ((offering ready 5).busy, t.busy) = (false, true)) ∧
    (∃ t, step (holding ready 5) = .next t ∧ ((holding ready 5).rst, (holding ready 5).busy, t.busy) = (false, true, false)) ∧
    ((busyAcquire never).Inv ∧ ∃ t, step (busyAcquire never) = .next t ∧ t.pendingKind = some .ACQUIRE) :=
  ⟨⟨idle_ready 5, rfl⟩, runs_of_seen (f := fun t => ((offering ready 5).busy, t.busy)) (by decide),
    runs_of_seen (f := fun t => ((holding ready 5).rst, (holding ready 5).busy, t.busy)) (by decide), busyAcquire_inv never,
    runs_of_seen (by decide)⟩

/-- A step that adds three events, and a reset, which empties `TRACE`. -/
theorem witness_TraceOnlyGrows :
    (∃ t, step (holding ready 2) = .next t ∧ t.trace.length = 6) ∧ ∃ t, step { ready with rst := true } = .next t ∧ t.trace = [] :=
  ⟨runs_of_seen (by decide), runs_of_seen (by decide)⟩

/-- Two blocks that differ in everything a command does not read: about to run a meaning, holding a word, and waiting. -/
theorem witness_CommandsReadOnlyTheNamedState :
    (∃ s t : State, s.agree t ∧ s.busy = true ∧ t.busy = true ∧ s.pending = none ∧ t.pending = none ∧ s.result ≠ t.result ∧
      s.stIdx ≠ t.stIdx ∧ s.trace ≠ t.trace) ∧
    (∃ s t : State, s.agree t ∧ s.cfg.legal = true ∧ s.rst = false ∧ t.rst = false ∧ s.busy = true ∧ t.busy = true ∧ s.cmd = t.cmd ∧
      s.pending = t.pending ∧ (s.cmd ≠ none ∧ s.pending = none) ∧ s.result ≠ t.result) ∧
    ∃ s t : State, s.agree t ∧ s.cfg.legal = true ∧ s.rst = false ∧ t.rst = false ∧ s.busy = true ∧ t.busy = true ∧ s.cmd = t.cmd ∧
      s.pending = t.pending ∧ (s.cmd = none ∧ s.pending ≠ none) ∧ s.result ≠ t.result :=
  ⟨⟨{ red with busy := true }, { red with busy := true, result := .illegalCommand, stIdx := true, stIll := true, trace := [] },
      ⟨rfl, rfl, rfl, rfl, rfl, rfl, rfl⟩, rfl, rfl, rfl, rfl, by decide, by decide, by decide⟩,
    ⟨holding red 5, { holding red 5 with result := .illegalCommand, stIll := true, trace := [] },
      ⟨rfl, rfl, rfl, rfl, rfl, rfl, rfl⟩, rfl, rfl, rfl, rfl, rfl, rfl, rfl, ⟨by decide, rfl⟩, by decide⟩,
    waiting, { waiting with result := .illegalCommand, stIll := true, trace := [] },
      ⟨rfl, rfl, rfl, rfl, rfl, rfl, rfl⟩, rfl, rfl, rfl, rfl, rfl, rfl, rfl, ⟨rfl, by decide⟩, by decide⟩

theorem witness_InvariantAtReset : small.legal = true ∧ (sized 1 4294967272).legal = true := by decide

/-- Steps from states that meet the invariant: an idle block that is offered nothing, an accepted command that runs, one that waited. -/
theorem witness_EveryStepKeepsInvariant :
    (red.Inv ∧ ∃ t, step red = .next t ∧ t.busy = false) ∧
    ((holding blank 1).Inv ∧ ∃ t, step (holding blank 1) = .next t ∧ t.lifecycle = .ready) ∧
    (waiting.Inv ∧ ∃ t, step waiting = .next t ∧ t.busy = false) :=
  ⟨⟨red_inv, runs_of_seen (by decide)⟩, ⟨holding_inv 1, runs_of_seen (by decide)⟩, waiting_inv, runs_of_seen (by decide)⟩

theorem witness_NoStopUnderInvariant : red.Inv ∧ waiting.Inv ∧ (busyAcquire never).Inv ∧ (holding blank 0).Inv :=
  ⟨red_inv, waiting_inv, busyAcquire_inv never, holding_inv 0⟩

theorem witness_IdleBlockMeetsR28 :
    (red.Inv ∧ red.busy = false ∧ red.lifecycle = .ready) ∧ red.cfg.ledLen ≤ 48 ∧ 0 < red.cfg.nLeds ∧ 1 < red.cfg.nLeds ∧
    red.fbByte 0 = 0x80 ∧ red.fbByte 8 = 0xF8 ∧ red.fbByte 24 = 0x00 :=
  ⟨⟨red_inv, rfl, rfl⟩, by decide⟩

theorem witness_StepRunsTheOfferedCommand :
    ((offering blank 1).idle ∧ (offering blank 1).program = 1 :: []) ∧ ((holding blank 1).holds 1 ∧ decode 1 = .ok .init) ∧
    (holding blank 6).holds 6 ∧ decode 6 = .error .reservedOpcode :=
  ⟨⟨idle_blank 1, rfl⟩, ⟨⟨rfl, rfl, rfl, rfl, rfl⟩, by decide⟩, ⟨rfl, rfl, rfl, rfl, rfl⟩, by decide⟩

theorem witness_IdleBlockStays : red.idle ∧ red.program = [] := ⟨⟨by decide, rfl, rfl, rfl, rfl⟩, rfl⟩

theorem witness_FetchWordIsRunNext : waiting.cfg.legal = true ∧ decode 0x0000000000FF0004 = .ok (.setAll 0 0xFF 0) := by decide

end Sys2Proof.Tests
end

/-! PROOFS of the family 00_scope.md: parameters and derived sizes (R6 to R8), and every command in progress ends (R12, R61, R140). -/

namespace Sys2Proof

/-! ## Parameters -/

/-- A byte is read as the high pattern whose byte it is, and as no other (R8). -/
theorem HiPattern.ofByte?_eq_some_iff (v : Byte) (hi : HiPattern) : HiPattern.ofByte? v = some hi ↔ hi.byte = v := by
  constructor
  · intro h
    unfold HiPattern.ofByte? at h
    split_ifs at h <;> cases h <;> exact Eq.symm ‹_›
  · rintro rfl
    cases hi <;> decide

/-- A byte is read as the low pattern whose byte it is, and as no other (R8). -/
theorem LoPattern.ofByte?_eq_some_iff (v : Byte) (lo : LoPattern) : LoPattern.ofByte? v = some lo ↔ lo.byte = v := by
  constructor
  · intro h
    unfold LoPattern.ofByte? at h
    split_ifs at h <;> cases h <;> exact Eq.symm ‹_›
  · rintro rfl
    cases lo <;> decide

theorem HiPattern.exists_byte_eq_iff (v : Byte) : (∃ hi : HiPattern, hi.byte = v) ↔ v = 0xF8 ∨ v = 0xFC ∨ v = 0xFE := by
  constructor
  · rintro ⟨hi, rfl⟩
    cases hi <;> decide
  · rintro (rfl | rfl | rfl)
    exacts [⟨.ones5, rfl⟩, ⟨.ones6, rfl⟩, ⟨.ones7, rfl⟩]

theorem LoPattern.exists_byte_eq_iff (v : Byte) : (∃ lo : LoPattern, lo.byte = v) ↔ v = 0x80 ∨ v = 0xC0 ∨ v = 0xE0 := by
  constructor
  · rintro ⟨lo, rfl⟩
    cases lo <;> decide
  · rintro (rfl | rfl | rfl)
    exacts [⟨.ones1, rfl⟩, ⟨.ones2, rfl⟩, ⟨.ones3, rfl⟩]

/-- The proposal that a parameter set is: its patterns as plain bytes (R6). -/
def Params.raw (p : Params) : RawParams :=
  ⟨p.nLeds, p.resetLen, p.timeout, p.timeoutUnit, p.pHi.byte, p.pLo.byte, p.pinPull⟩

/-- A proposal is taken as `p` exactly when it is the proposal of `p`, and `p` is legal (R8). -/
theorem RawParams.check_eq_some_iff (q : RawParams) (p : Params) : q.check = some p ↔ q = p.raw ∧ p.legal = true := by
  constructor
  · intro h
    unfold RawParams.check at h
    split at h
    · next hi lo hHi hLo =>
      rw [HiPattern.ofByte?_eq_some_iff] at hHi
      rw [LoPattern.ofByte?_eq_some_iff] at hLo
      dsimp only at h
      split_ifs at h with hl
      cases h
      exact ⟨by simp only [Params.raw, hHi, hLo], hl⟩
    · cases h
  · rintro ⟨rfl, hl⟩
    have hHi : HiPattern.ofByte? p.raw.pHi = some p.pHi := (HiPattern.ofByte?_eq_some_iff _ _).2 rfl
    have hLo : LoPattern.ofByte? p.raw.pLo = some p.pLo := (LoPattern.ofByte?_eq_some_iff _ _).2 rfl
    unfold RawParams.check
    rw [hHi, hLo]
    exact if_pos hl

/-- The four constraints of R8 on a proposal. -/
theorem RawParams.check_isSome_iff (q : RawParams) :
    q.check.isSome = true ↔
      1 ≤ q.nLeds ∧ 24 * q.nLeds + q.resetLen ≤ 2 ^ 32 ∧
      (q.pHi = 0xF8 ∨ q.pHi = 0xFC ∨ q.pHi = 0xFE) ∧ (q.pLo = 0x80 ∨ q.pLo = 0xC0 ∨ q.pLo = 0xE0) := by
  rw [Option.isSome_iff_exists, ← HiPattern.exists_byte_eq_iff, ← LoPattern.exists_byte_eq_iff]
  constructor
  · rintro ⟨p, h⟩
    obtain ⟨rfl, hl⟩ := (q.check_eq_some_iff p).1 h
    obtain ⟨hn, hf⟩ := (Machine.Params_legal_iff p).1 hl
    exact ⟨hn, hf, ⟨p.pHi, rfl⟩, ⟨p.pLo, rfl⟩⟩
  · rintro ⟨hn, hf, ⟨hi, hHi⟩, ⟨lo, hLo⟩⟩
    refine ⟨⟨q.nLeds, q.resetLen, q.timeout, q.timeoutUnit, hi, lo, q.pinPull⟩, (q.check_eq_some_iff _).2 ⟨?_, ?_⟩⟩
    · simp only [Params.raw, hHi, hLo]
    · exact (Machine.Params_legal_iff _).2 ⟨hn, hf⟩

theorem HiPattern.byte_ne_zero (hi : HiPattern) : hi.byte ≠ 0x00 := by cases hi <;> decide

theorem LoPattern.byte_ne_zero (lo : LoPattern) : lo.byte ≠ 0x00 := by cases lo <;> decide

theorem HiPattern.byte_ne_lo (hi : HiPattern) (lo : LoPattern) : hi.byte ≠ lo.byte := by cases hi <;> cases lo <;> decide

/-! ## Draws -/

/-- The answer to the request comes some day: only a request for the bus may wait for ever (R140). -/
def Draw.comes (d : Draw) (r : Machine.Request) : Prop := r = .acquire → d.granted = true

/-- An answer that comes some day is there when the wait is over. -/
theorem Draw.comes.answers {d : Draw} {r : Machine.Request} (h : d.comes r) (hw : d.wait = 0) : d.answers r = true :=
  (Machine.Draw_answers_iff d r).2 ⟨hw, h⟩

/-- A step of waiting that leaves any waiting to do has shortened it. -/
theorem Draw.wait_tick_lt {d : Draw} (h : d.tick.wait ≠ 0) : d.tick.wait < d.wait := by
  simp only [Draw.tick] at h ⊢
  omega

end Sys2Proof

namespace Sys2Proof.Machine

/-- R8: a block with illegal parameters is refused whatever else its state holds. -/
theorem step_of_illegal (s : State) (h : s.cfg.legal ≠ true) : step s = .refused .illegalParameters := if_neg h

/-- Settles O1: a proposal is taken exactly as the parameter set it is the proposal of (`RawParams.check_eq_some_iff`). -/
theorem parametersOutsideR8AreRefused : Obligations.ParametersOutsideR8AreRefused := by
  refine ⟨fun q => ⟨q.check_isSome_iff, fun p hp => ?_⟩, fun s h => ?_, fun p => ?_⟩
  · obtain ⟨rfl, hl⟩ := (q.check_eq_some_iff p).1 hp
    exact ⟨rfl, rfl, rfl, rfl, rfl, rfl, rfl, hl⟩
  · exact step_of_illegal s fun hl => h ((Params_legal_iff s.cfg).1 hl)
  · exact ⟨p.pHi.byte_ne_lo p.pLo, p.pHi.byte_ne_zero, p.pLo.byte_ne_zero⟩

/-- Settles O2: both sizes are R7's formulas by definition, and the example is their arithmetic. -/
theorem derivedSizes : Obligations.DerivedSizes := by
  refine ⟨fun _ => ⟨rfl, rfl⟩, fun p hn hr => ?_⟩
  rw [Params.fbLen, hn, hr]

/-! ## Every command in progress ends

A command is a chain of requests. `State.Ends` is carried backwards along it: from the end of the command to the code that runs after each
answer, through the wait for that answer, to the request before it. -/

/-- A command runs on the block, with `o` its outstanding request, while the host offers the commands `p`. -/
structure State.InProgress (p : List Cmd) (o : Option Outstanding) (s : State) : Prop where
  legal : s.cfg.legal = true
  busy : s.busy = true
  pending : s.pending = o
  cmd : s.cmd = none
  rst : s.rst = false
  program : s.program = p

/-- The block is idle after some number of steps, and the host then offers the commands `p`. -/
def State.Ends (p : List Cmd) (s : State) : Prop := ∃ n t, Reaches n s t ∧ t.idle ∧ t.program = p

section

variable {p : List Cmd} {s t : State}

theorem State.Ends.of_step (hs : step s = .next t) (h : t.Ends p) : s.Ends p := by
  obtain ⟨n, u, hr, hu⟩ := h
  exact ⟨n + 1, u, ⟨t, hs, hr⟩, hu⟩

namespace State.InProgress

theorem ends_complete (h : s.InProgress p none) : s.complete.Ends p :=
  ⟨0, _, rfl, ⟨h.legal, rfl, h.pending, h.cmd, h.rst⟩, h.program⟩

theorem ends_raise (h : s.InProgress p none) (c : ResultCode) : (s.raise c).Ends p :=
  ⟨0, _, rfl, ⟨by simpa using h.legal, by simp, by simpa using h.pending, by simpa using h.cmd, by simpa using h.rst⟩,
    by simpa using h.program⟩

theorem takeDraw {o : Option Outstanding} (h : s.InProgress p o) : s.takeDraw.InProgress p o :=
  ⟨h.legal, h.busy, h.pending, h.cmd, h.rst, h.program⟩

theorem record {o : Option Outstanding} (h : s.InProgress p o) (r : Request) (a : Answer) :
    (s.record r a).InProgress p none :=
  ⟨h.legal, h.busy, rfl, h.cmd, h.rst, h.program⟩

theorem setPending {o : Option Outstanding} (h : s.InProgress p o) (o' : Outstanding) :
    (s.setPending o').InProgress p (some o') :=
  ⟨h.legal, h.busy, rfl, h.cmd, h.rst, h.program⟩

theorem advance {o : Option Outstanding} (h : s.InProgress p o) : s.advance.InProgress p o :=
  ⟨h.legal, h.busy, h.pending, h.cmd, h.rst, h.program⟩

theorem setBusOwned {o : Option Outstanding} (h : s.InProgress p o) (b : Bool) : (s.setBusOwned b).InProgress p o :=
  ⟨h.legal, h.busy, h.pending, h.cmd, h.rst, h.program⟩

theorem setPinMode {o : Option Outstanding} (h : s.InProgress p o) (m : PinMode) : (s.setPinMode m).InProgress p o :=
  ⟨h.legal, h.busy, h.pending, h.cmd, h.rst, h.program⟩

theorem setLifecycle {o : Option Outstanding} (h : s.InProgress p o) (l : Lifecycle) : (s.setLifecycle l).InProgress p o :=
  ⟨h.legal, h.busy, h.pending, h.cmd, h.rst, h.program⟩

theorem setFb {o : Option Outstanding} (h : s.InProgress p o) (m : Memory) : (s.setFb m).InProgress p o :=
  ⟨h.legal, h.busy, h.pending, h.cmd, h.rst, h.program⟩

/-- A command whose outstanding request is answered some day ends, if it ends after any answer: each step of waiting shortens the wait. -/
theorem ends_of_waiting {s : State} {o : Outstanding} (h : s.InProgress p (some o)) (hd : o.draw.comes o.req)
    (go : ∀ (u : State) (a : Answer), u.InProgress p none → (resume u o.req a).Ends p) : s.Ends p := by
  refine .of_step (step_of_waiting s o h.legal h.busy h.pending h.cmd h.rst) ?_
  rcases s.await_cases o with ⟨hw, e⟩ | ⟨-, e⟩ <;> rw [e]
  · have hd' : o.draw.tick.comes o.req := hd
    have shorter : o.draw.tick.wait < o.draw.wait := Draw.wait_tick_lt fun h0 => by simp [hd'.answers h0] at hw
    exact ends_of_waiting (h.setPending ⟨o.req, o.draw.tick⟩).advance hd' go
  · exact go _ _ (h.record _ _)
termination_by o.draw.wait

/-- A command that sends a request ends, if the answer comes some day and the command ends after it, at once or resumed. -/
theorem ends_request {r : Request} {next : State → Answer → State} (h : s.InProgress p none) (hd : (s.draw 0).comes r)
    (now : ∀ (u : State) (a : Answer), u.InProgress p none → (next u a).Ends p)
    (later : ∀ (u : State) (a : Answer), u.InProgress p none → (resume u r a).Ends p) : (s.request r next).Ends p :=
  State.request_elim ((h.takeDraw.setPending _).ends_of_waiting hd later) (now _ _ (h.takeDraw.record _ _))

/-! Each piece of a bus command between two requests, the last piece of each command first (R131, R134, R137). -/

theorem ends_afterInitLow (h : s.InProgress p none) (a : Answer) : (afterInitLow s a).Ends p :=
  (h.setLifecycle _).ends_complete

theorem ends_afterInert (h : s.InProgress p none) (a : Answer) : (afterInert s a).Ends p :=
  ((h.setPinMode _).setLifecycle _).ends_complete

theorem ends_afterTransmit (h : s.InProgress p none) (a : Answer) : (afterTransmit s a).Ends p := by
  unfold afterTransmit
  split
  · exact h.ends_complete
  · exact h.ends_raise _

theorem ends_afterDeinitLow (h : s.InProgress p none) (a : Answer) : (afterDeinitLow s a).Ends p :=
  h.ends_request nofun (fun _ a hu => hu.ends_afterInert a) fun _ a hu => hu.ends_afterInert a

theorem ends_resume_pinWrite (h : s.InProgress p none) (l : Level) (a : Answer) : (resume s (.pinWrite l) a).Ends p := by
  simp only [resume]
  split
  · exact h.ends_afterInitLow a
  · exact h.ends_afterDeinitLow a

theorem ends_afterInitConfig (h : s.InProgress p none) (a : Answer) : (afterInitConfig s a).Ends p :=
  (h.setPinMode _).ends_request nofun (fun _ a hu => hu.ends_afterInitLow a) fun _ a hu => hu.ends_resume_pinWrite _ a

theorem ends_afterAcquire (h : s.InProgress p none) (a : Answer) : (afterAcquire s a).Ends p :=
  (h.setBusOwned _).ends_request nofun (fun _ a hu => hu.ends_afterInitConfig a) fun _ a hu => hu.ends_afterInitConfig a

theorem ends_afterRelease (h : s.InProgress p none) (a : Answer) : (afterRelease s a).Ends p :=
  (h.setBusOwned _).ends_request nofun (fun _ a hu => hu.ends_afterDeinitLow a) fun _ a hu => hu.ends_resume_pinWrite _ a

/-- Whatever request a command has waited for, it ends after the answer. -/
theorem ends_resume (h : s.InProgress p none) (r : Request) (a : Answer) : (resume s r a).Ends p := by
  cases r with
  | acquire => exact h.ends_afterAcquire a
  | release => exact h.ends_afterRelease a
  | pinCfg m _ _ =>
    cases m
    · exact h.ends_afterInert a
    · exact h.ends_afterInitConfig a
  | pinWrite l => exact h.ends_resume_pinWrite l a
  | transmit _ _ _ => exact h.ends_afterTransmit a

theorem ends_painted (h : s.InProgress p none) (m : Memory) : (s.painted m).Ends p := (h.setFb m).ends_complete

/-- The meaning of every command ends, unless it is an `INIT` in `UNINIT` that draws a bus it is never granted (R140). -/
theorem exec_ends (h : s.InProgress p none) (i : Instr)
    (granted : i = .init → s.lifecycle = .uninit → (s.draw 0).granted = true) : ∃ t, exec i s = .next t ∧ t.Ends p := by
  cases i with
  | init =>
    simp only [exec, execInit]
    split
    · exact ⟨_, rfl, h.ends_raise _⟩
    · next hl =>
      exact ⟨_, rfl, h.ends_request (fun _ => granted rfl (not_not.1 hl)) (fun _ a hu => hu.ends_afterAcquire a)
        fun _ a hu => hu.ends_afterAcquire a⟩
  | deinit =>
    simp only [exec, execDeinit]
    split
    · exact ⟨_, rfl, h.ends_raise _⟩
    · exact ⟨_, rfl, h.ends_request nofun (fun _ a hu => hu.ends_afterRelease a) fun _ a hu => hu.ends_afterRelease a⟩
  | setPixel idx r g b =>
    simp only [exec, execSetPixel_eq]
    split_ifs
    · exact ⟨_, rfl, h.ends_raise _⟩
    · exact ⟨_, rfl, h.ends_raise _⟩
    · exact ⟨_, rfl, h.ends_painted _⟩
  | setAll r g b =>
    simp only [exec, execSetAll_eq]
    split
    · exact ⟨_, rfl, h.ends_raise _⟩
    · exact ⟨_, rfl, h.ends_painted _⟩
  | send =>
    simp only [exec, execSend]
    split
    · exact ⟨_, rfl, h.ends_raise _⟩
    · exact ⟨_, rfl, h.ends_request nofun (fun _ a hu => hu.ends_afterTransmit a) fun _ a hu => hu.ends_afterTransmit a⟩

end State.InProgress

theorem State.holds.cmd_eq {w : Cmd} (h : s.holds w) : s.cmd = some w := by
  obtain ⟨-, -, -, hc, -⟩ := h
  exact hc

/-- A block that has accepted a word and drops it to run it has a command in progress. -/
theorem State.holds.inProgress_dropCmd {w : Cmd} (h : s.holds w) : s.dropCmd.InProgress s.program none := by
  obtain ⟨hl, hb, hp, -, hr⟩ := h
  exact ⟨hl, hb, hp, rfl, hr, rfl⟩

/-- An accepted word, legal or not, is run to its end, unless it is an `INIT` that is never granted the bus. -/
theorem State.holds.ends {w : Cmd} (h : s.holds w)
    (granted : decode w = .ok .init → s.lifecycle = .uninit → (s.draw 0).granted = true) : s.Ends s.program := by
  have hrun : ∃ t, runWord w s.dropCmd = .next t ∧ t.Ends s.program := by
    unfold runWord
    split
    · next i hi => exact h.inProgress_dropCmd.exec_ends i fun e => granted (e ▸ hi)
    · exact ⟨_, rfl, h.inProgress_dropCmd.ends_raise _⟩
  obtain ⟨t, ht, hends⟩ := hrun
  exact .of_step ((step_of_holds s w h).trans ht) hends

/-- A busy block that meets the invariant holds a word it has not run yet, or waits for the platform (R23, R61). -/
theorem State.Inv.holds_or_inProgress (hi : s.Inv) (hr : s.rst = false) (hb : s.busy = true) :
    (∃ w, s.holds w) ∨ ∃ o, s.InProgress s.program (some o) := by
  cases hc : s.cmd with
  | some w =>
    have hp : s.pending = none := hi.oneCommand.resolve_left (by simp [hc])
    exact .inl ⟨w, hi.legal, hb, hp, hc, hr⟩
  | none =>
    have hp : s.pending.isSome = true := by simpa [hb, hc] using hi.handshake.symm
    obtain ⟨o, ho⟩ := Option.isSome_iff_exists.1 hp
    exact .inr ⟨o, hi.legal, hb, ho, hc, hr, rfl⟩

end

/-- Settles O33: an accepted word runs to its end (`State.holds.ends`), and a wait ends and the command after it
(`State.InProgress.ends_of_waiting`, `ends_resume`). -/
theorem commandsInProgressEnd : Obligations.CommandsInProgressEnd := by
  intro s hi hr hb hWait hHeld
  obtain ⟨w, h⟩ | ⟨o, h⟩ := hi.holds_or_inProgress hr hb
  · exact h.ends (hHeld w h.cmd_eq)
  · exact h.ends_of_waiting (hWait o h.pending) fun _ a hu => hu.ends_resume o.req a

end Sys2Proof.Machine

/-! PROOFS of the family 10_state.md: the invariant at reset and in every step (R20 to R28), what a step of a busy block changes (R22, R23,
R25, R29, R30), what a command reads (R31), and the status word (R24). -/

namespace Sys2Proof.Machine

/-! ## The frame buffer of a block that meets the invariant (R28, R57) -/

/-- The part of the invariant that speaks of `FB`. -/
structure State.FbOk (s : State) : Prop where
  memory : s.fb.wf = true
  inLeds : ∀ c ∈ s.fb, c.1 < s.cfg.ledLen
  slots : ∀ i < s.cfg.nLeds, s.slotOk i

theorem State.Inv.fbOk {s : State} (h : s.Inv) : s.FbOk := ⟨h.memory, h.inLeds, h.slots⟩

theorem State.FbOk.fbByte_of_ledLen_le {s : State} (h : s.FbOk) {a : Nat} (ha : s.cfg.ledLen ≤ a) : s.fbByte a = 0x00 :=
  Memory.read_of_not_mem s.fb a fun c hc => by
    have hlt := h.inLeds c hc
    omega

/-- What a `SEND` hands over ends with the reset region, all zero (R198). -/
theorem State.FbOk.drop_frame {s : State} (h : s.FbOk) : s.frame.drop s.cfg.ledLen = List.replicate s.cfg.resetLen 0 := by
  refine List.eq_replicate_iff.2 ⟨?_, fun v hv => ?_⟩
  · rw [List.length_drop, length_frame, Params.fbLen, Params.ledLen, Nat.add_sub_cancel_left]
  · obtain ⟨i, hi, rfl⟩ := List.mem_drop_iff_getElem.1 hv
    have hread : s.frame[s.cfg.ledLen + i] = s.fbByte (s.cfg.ledLen + i) := by simp [State.frame, State.fbByte]
    exact hread.trans (h.fbByte_of_ledLen_le (by omega))

/-- Writing a colour's encoding into an LED's slot keeps every other slot and the reset region as they were. -/
theorem State.FbOk.setFb_writeBytes {s : State} (h : s.FbOk) {i : Nat} (hi : i < s.cfg.nLeds) {ws : List Byte} {r g b : Byte}
    (hws : ws = encodePixel s.cfg r g b) : (s.setFb (s.fb.writeBytes (slotBase i) ws)).FbOk where
  memory := Memory.wf_writeBytes s.fb (slotBase i) ws h.memory
  inLeds c hc := by
    have hlen : ws.length = 24 := hws ▸ length_encodePixel s.cfg r g b
    rcases Memory.mem_writeBytes ws s.fb (slotBase i) c hc with hc | ⟨-, hc⟩
    · exact h.inLeds c hc
    · rw [hlen, slotBase] at hc
      show c.1 < 24 * s.cfg.nLeds
      omega
  slots j hj := by
    have hlen : ws.length = 24 := hws ▸ length_encodePixel s.cfg r g b
    have hread (k : Nat) := Memory.read_writeBytes s.fb (slotBase i) ws (slotBase j + k) h.memory
    rw [hlen] at hread
    by_cases hji : j = i
    · subst hji
      refine .inr ⟨r, g, b, fun k hk => (hread k).trans ?_⟩
      rw [if_pos (by omega), Nat.add_sub_cancel_left, hws, State.setFb_cfg]
    · have hkeep (k : Nat) (hk : k < 24) : (s.setFb (s.fb.writeBytes (slotBase i) ws)).fbByte (slotBase j + k) = s.fbByte (slotBase j + k) :=
        (hread k).trans (if_neg (by unfold slotBase; omega))
      exact (h.slots j hj).imp (fun hz k hk => (hkeep k hk).trans (hz k hk))
        fun ⟨r', g', b', he⟩ => ⟨r', g', b', fun k hk => (hkeep k hk).trans (he k hk)⟩

theorem State.FbOk.setFb_fillSlots {s : State} (h : s.FbOk) {ws : List Byte} {r g b : Byte} (hws : ws = encodePixel s.cfg r g b) {n : Nat}
    (hn : n ≤ s.cfg.nLeds) : (s.setFb (fillSlots s.fb ws n)).FbOk := by
  induction n with
  | zero => exact h
  | succ n ih => exact (ih (by omega)).setFb_writeBytes hn hws

/-! ## The invariant in the middle of a command (R26, R27, R131, R134, R137) -/

@[simp] theorem traceOwned_append (tr : List Event) (e : Event) : traceOwned (tr ++ [e]) = ownedBy (traceOwned tr) e := by
  simp [traceOwned]

@[simp] theorem tracePinMode_append (tr : List Event) (e : Event) : tracePinMode (tr ++ [e]) = modeBy (tracePinMode tr) e := by
  simp [tracePinMode]

/-- A command runs, between an answer's last effect and the next request: the block meets the invariant but for its stage, `STATE` is `l`,
the bus is held as `owned` says and the pin is in mode `m`. -/
structure State.Running (l : Lifecycle) (owned : Bool) (m : PinMode) (s : State) : Prop where
  legal : s.cfg.legal = true
  fbOk : s.FbOk
  busy : s.busy = true
  cmd : s.cmd = none
  sticky : s.sticky s.result = true
  frames : ∀ e ∈ s.trace, e.req.wholeFrame s.cfg
  lifecycle : s.lifecycle = l
  busOwned : s.busOwned = owned
  pinMode : s.pinMode = m
  traceOwned : traceOwned s.trace = owned
  tracePinMode : tracePinMode s.trace = m

/-- An answer has come: the event is recorded, and `BUS_OWNED` and `PIN_MODE` follow it (R26, R27). -/
def State.answered (s : State) (r : Request) (a : Answer) : State :=
  ((s.record r a).setBusOwned (ownedBy s.busOwned ⟨r, a⟩)).setPinMode (modeBy s.pinMode ⟨r, a⟩)

namespace State.Running

variable {l : Lifecycle} {owned : Bool} {m : PinMode} {s : State}

theorem takeDraw (h : s.Running l owned m) : s.takeDraw.Running l owned m :=
  ⟨h.legal, ⟨h.fbOk.memory, h.fbOk.inLeds, h.fbOk.slots⟩, h.busy, h.cmd, by simpa using h.sticky, h.frames, h.lifecycle, h.busOwned,
    h.pinMode, h.traceOwned, h.tracePinMode⟩

theorem advance (h : s.Running l owned m) : s.advance.Running l owned m :=
  ⟨h.legal, ⟨h.fbOk.memory, h.fbOk.inLeds, h.fbOk.slots⟩, h.busy, h.cmd, by simpa using h.sticky, h.frames, h.lifecycle, h.busOwned,
    h.pinMode, h.traceOwned, h.tracePinMode⟩

theorem setFb (h : s.Running l owned m) {mem : Memory} (hf : (s.setFb mem).FbOk) : (s.setFb mem).Running l owned m :=
  ⟨h.legal, hf, h.busy, h.cmd, by simpa using h.sticky, h.frames, h.lifecycle, h.busOwned, h.pinMode,
    h.traceOwned, h.tracePinMode⟩

theorem answered (h : s.Running l owned m) (r : Request) (a : Answer) (hf : r.wholeFrame s.cfg) :
    (s.answered r a).Running l (ownedBy owned ⟨r, a⟩) (modeBy m ⟨r, a⟩) where
  legal := h.legal
  fbOk := ⟨h.fbOk.memory, h.fbOk.inLeds, h.fbOk.slots⟩
  busy := h.busy
  cmd := h.cmd
  sticky := by simpa [State.answered] using h.sticky
  frames := List.forall_mem_append.2 ⟨h.frames, List.forall_mem_singleton.2 hf⟩
  lifecycle := h.lifecycle
  busOwned := by simp [State.answered, h.busOwned]
  pinMode := by simp [State.answered, h.pinMode]
  traceOwned := by simp [State.answered, h.traceOwned]
  tracePinMode := by simp [State.answered, h.tracePinMode]

/-! The end of a command, and a request that waits. -/

/-- A command that ends with `STATE` at the value that fits the bus and the pin leaves the invariant. -/
theorem inv_complete (h : s.Running l owned m) (hp : s.pending = none) {l' : Lifecycle}
    (hrest : (s.setLifecycle l').resting) : (s.setLifecycle l').complete.Inv where
  legal := h.legal
  memory := h.fbOk.memory
  inLeds := h.fbOk.inLeds
  slots := h.fbOk.slots
  handshake := by simp [h.cmd, hp]
  oneCommand := .inr hp
  stage := by simpa [State.stage, State.resting, hp] using hrest
  sticky := rfl
  owned := h.busOwned.trans h.traceOwned.symm
  mode := h.pinMode.trans h.tracePinMode.symm
  frames := h.frames
  pendingFrame := by simp [hp]

theorem inv_raise (h : s.Running l owned m) (hp : s.pending = none) (hrest : s.resting) (c : ResultCode) : (s.raise c).Inv where
  legal := by simpa using h.legal
  memory := by simpa using h.fbOk.memory
  inLeds := by simpa using h.fbOk.inLeds
  slots := by simpa [State.slotOk, State.fbByte] using h.fbOk.slots
  handshake := by simp [h.cmd, hp]
  oneCommand := .inr (by simpa using hp)
  stage := by simpa [State.stage, State.resting, hp] using hrest
  sticky := by simp [State.raise_sticky]
  owned := by simp [h.busOwned, h.traceOwned]
  mode := by simp [h.pinMode, h.tracePinMode]
  frames := by simpa using h.frames
  pendingFrame := by simp [hp]

theorem inv_setPending (h : s.Running l owned m) {o : Outstanding} (hf : o.req.wholeFrame s.cfg) (hst : (s.setPending o).stage) :
    (s.setPending o).Inv where
  legal := h.legal
  memory := h.fbOk.memory
  inLeds := h.fbOk.inLeds
  slots := h.fbOk.slots
  handshake := by simp [h.busy]
  oneCommand := .inl h.cmd
  stage := hst
  sticky := by simpa using h.sticky
  owned := h.busOwned.trans h.traceOwned.symm
  mode := h.pinMode.trans h.tracePinMode.symm
  frames := h.frames
  pendingFrame := by simpa using hf

/-- A command that sends a request which fits its stage keeps the invariant, if it does so after the answer. -/
theorem inv_request (h : s.Running l owned m) {r : Request} {next : State → Answer → State} (hf : r.wholeFrame s.cfg)
    (hst : ∀ d, (s.takeDraw.setPending ⟨r, d⟩).stage)
    (now : ∀ (u : State) (a : Answer), u.Running l owned m → u.cfg = s.cfg → (next (u.record r a) a).Inv) : (s.request r next).Inv :=
  State.request_elim (h.takeDraw.inv_setPending hf (hst _)) (now _ _ h.takeDraw rfl)

/-! Each piece of a bus command after an answer, the last piece of each command first. -/

theorem inv_afterInitLow (h : s.Running .uninit true .ppOut) (lv : Level) (a : Answer) :
    (afterInitLow (s.record (.pinWrite lv) a) a).Inv :=
  (h.answered (.pinWrite lv) a trivial).inv_complete rfl (l' := .ready) ⟨h.busOwned, h.pinMode⟩

theorem inv_afterInert (h : s.Running .ready false .ppOut) (pull : Option Pull) (speed : Option Speed) (a : Answer) :
    (afterInert (s.record (.pinCfg .inert pull speed) a) a).Inv :=
  (h.answered (.pinCfg .inert pull speed) a trivial).inv_complete rfl (l' := .uninit) ⟨h.busOwned, rfl⟩

theorem inv_afterTransmit (h : s.Running .ready true .ppOut) {bytes : List Byte} {len timeout : Nat}
    (hf : (Request.transmit bytes len timeout).wholeFrame s.cfg) (a : Answer) :
    (afterTransmit (s.record (.transmit bytes len timeout) a) a).Inv := by
  have hr := h.answered (.transmit bytes len timeout) a hf
  have hrest : (s.answered (.transmit bytes len timeout) a).resting := by
    simp [State.resting, hr.lifecycle, hr.busOwned, hr.pinMode, ownedBy, modeBy]
  unfold afterTransmit
  split
  · exact hr.inv_complete rfl (l' := s.lifecycle) hrest
  · exact hr.inv_raise rfl hrest _

theorem inv_afterDeinitLow (h : s.Running .ready false .ppOut) (lv : Level) (a : Answer) :
    (afterDeinitLow (s.record (.pinWrite lv) a) a).Inv := by
  have hr := h.answered (.pinWrite lv) a trivial
  exact hr.inv_request trivial (fun _ => ⟨hr.lifecycle, hr.busOwned, hr.pinMode⟩) fun _ a hu _ => hu.inv_afterInert none none a

theorem inv_afterInitConfig (h : s.Running .uninit true .inert) (pull : Option Pull) (speed : Option Speed) (a : Answer) :
    (afterInitConfig (s.record (.pinCfg .ppOut pull speed) a) a).Inv := by
  have hr := h.answered (.pinCfg .ppOut pull speed) a trivial
  refine hr.inv_request trivial (fun _ => ?_) fun _ a hu _ => hu.inv_afterInitLow .low a
  simp [State.stage, hr.lifecycle, hr.busOwned, hr.pinMode, ownedBy, modeBy]

theorem inv_afterAcquire (h : s.Running .uninit false .inert) (a : Answer) : (afterAcquire (s.record .acquire a) a).Inv := by
  have hr := h.answered .acquire a trivial
  exact hr.inv_request trivial (fun _ => ⟨hr.lifecycle, hr.busOwned, hr.pinMode⟩) fun _ a hu _ => hu.inv_afterInitConfig _ _ a

theorem inv_afterRelease (h : s.Running .ready true .ppOut) (a : Answer) : (afterRelease (s.record .release a) a).Inv := by
  have hr := h.answered .release a trivial
  refine hr.inv_request trivial (fun _ => ?_) fun _ a hu _ => hu.inv_afterDeinitLow .low a
  simp [State.stage, hr.lifecycle, hr.busOwned, hr.pinMode, ownedBy, modeBy]

/-! The meaning of each command. -/

theorem inv_painted (h : s.Running .ready true .ppOut) (hp : s.pending = none) {mem : Memory} (hf : (s.setFb mem).FbOk) :
    (s.painted mem).Inv :=
  (h.setFb hf).inv_complete hp (l' := s.lifecycle) (by simp [State.resting, h.lifecycle, h.busOwned, h.pinMode])

/-- Every command keeps the invariant of the block that runs it. -/
theorem inv_exec {t : State} (hs : s.Running s.lifecycle s.busOwned s.pinMode) (hp : s.pending = none) (hrest : s.resting) {i : Instr}
    (h : exec i s = .next t) : t.Inv := by
  have raised (c : ResultCode) : (s.raise c).Inv := hs.inv_raise hp hrest c
  have ready (hl : s.lifecycle = .ready) : s.Running .ready true .ppOut := by
    obtain ⟨hb, hm⟩ : s.busOwned = true ∧ s.pinMode = .ppOut := by simpa [State.resting, hl] using hrest
    simpa [hl, hb, hm] using hs
  have uninit (hl : s.lifecycle = .uninit) : s.Running .uninit false .inert := by
    obtain ⟨hb, hm⟩ : s.busOwned = false ∧ s.pinMode = .inert := by simpa [State.resting, hl] using hrest
    simpa [hl, hb, hm] using hs
  cases i with
  | init =>
    simp only [exec, execInit] at h
    split at h <;> cases h
    · exact raised _
    · next hl =>
      have hr := uninit (not_not.1 hl)
      exact hr.inv_request trivial (fun _ => ⟨hr.lifecycle, hr.busOwned, hr.pinMode⟩) fun _ a hu _ => hu.inv_afterAcquire a
  | deinit =>
    simp only [exec, execDeinit] at h
    split at h <;> cases h
    · exact raised _
    · next hl =>
      have hr := ready (not_not.1 hl)
      exact hr.inv_request trivial (fun _ => ⟨hr.lifecycle, hr.busOwned, hr.pinMode⟩) fun _ a hu _ => hu.inv_afterRelease a
  | setPixel idx r g b =>
    simp only [exec, execSetPixel_eq] at h
    split_ifs at h with hl hi <;> cases h
    · exact raised _
    · exact raised _
    · exact (ready (not_not.1 hl)).inv_painted hp (hs.fbOk.setFb_writeBytes (not_le.1 hi) rfl)
  | setAll r g b =>
    simp only [exec, execSetAll_eq] at h
    split at h <;> cases h
    · exact raised _
    · next hl => exact (ready (not_not.1 hl)).inv_painted hp (hs.fbOk.setFb_fillSlots rfl le_rfl)
  | send =>
    simp only [exec, execSend] at h
    split at h <;> cases h
    · exact raised _
    · next hl =>
      have hr := ready (not_not.1 hl)
      have hf : (Request.transmit s.frame s.cfg.fbLen s.cfg.timeout).wholeFrame s.cfg := ⟨length_frame s, rfl, rfl, hs.fbOk.drop_frame⟩
      exact hr.inv_request hf (fun _ => ⟨hr.lifecycle, hr.busOwned, hr.pinMode⟩)
        fun u a hu hc => hu.inv_afterTransmit (hc ▸ hf) a

end State.Running

/-! ## The invariant at reset and in every step -/

/-- A block that honours a reset meets the invariant, whatever it was doing (R190, R191). -/
theorem State.inv_resetBlock {s : State} (h : s.cfg.legal = true) : s.resetBlock.Inv where
  legal := h
  memory := rfl
  inLeds := nofun
  slots _ _ := .inl fun _ _ => rfl
  handshake := rfl
  oneCommand := .inl rfl
  stage := ⟨rfl, rfl⟩
  sticky := rfl
  owned := rfl
  mode := rfl
  frames := nofun
  pendingFrame := nofun

/-- Settles O46: the reset state is what a reset of it leaves (`State.inv_resetBlock`). -/
theorem invariantAtReset : Obligations.InvariantAtReset :=
  have hreset (p : Params) (h : p.legal = true) : (State.resetWith p).Inv := State.inv_resetBlock (s := State.resetWith p) h
  ⟨hreset, hreset Config.params (by decide)⟩

namespace State.Inv

variable {s : State}

/-- A command that waits for an answer runs. -/
theorem running (h : s.Inv) (hb : s.busy = true) (hc : s.cmd = none) : s.Running s.lifecycle s.busOwned s.pinMode :=
  ⟨h.legal, h.fbOk, hb, hc, h.sticky, h.frames, rfl, rfl, rfl, h.owned.symm, h.mode.symm⟩

/-- An accepted word that is dropped to be run is a command that runs. -/
theorem running_dropCmd (h : s.Inv) (hb : s.busy = true) :
    s.dropCmd.Running s.dropCmd.lifecycle s.dropCmd.busOwned s.dropCmd.pinMode :=
  ⟨h.legal, ⟨h.memory, h.inLeds, h.slots⟩, hb, rfl, by simpa using h.sticky, h.frames, rfl, rfl, rfl, h.owned.symm, h.mode.symm⟩

theorem resting (h : s.Inv) (hp : s.pending = none) : s.resting := by simpa [State.stage, hp] using h.stage

theorem accept (h : s.Inv) (hp : s.pending = none) (w : Cmd) (rest : List Cmd) : (s.accept w rest).Inv where
  legal := h.legal
  memory := h.memory
  inLeds := h.inLeds
  slots := h.slots
  handshake := rfl
  oneCommand := .inr hp
  stage := h.stage
  sticky := by simpa using h.sticky
  owned := h.owned
  mode := h.mode
  frames := h.frames
  pendingFrame := h.pendingFrame

/-- One more step of waiting leaves the request and its stage as they are. -/
theorem keepWaiting (h : s.Inv) (hb : s.busy = true) (hc : s.cmd = none) {o : Outstanding} (ho : s.pending = some o) (d : Draw) :
    (s.setPending ⟨o.req, d⟩).advance.Inv :=
  (h.running hb hc).advance.inv_setPending (o := ⟨o.req, d⟩) (h.pendingFrame o ho)
    (by simpa [State.stage, ho] using h.stage)

/-- The answer comes: the stage of the request says where the command stands, and it goes on from there. -/
theorem resume (h : s.Inv) (hb : s.busy = true) (hc : s.cmd = none) {r : Request} {d : Draw} (ho : s.pending = some ⟨r, d⟩) (a : Answer) :
    (resume (s.record r a) r a).Inv := by
  have hr := h.running hb hc
  have hst := h.stage
  have hf : r.wholeFrame s.cfg := h.pendingFrame _ ho
  simp only [State.stage, ho] at hst
  cases r with
  | acquire =>
    obtain ⟨hl, hown, hm⟩ := hst
    rw [hl, hown, hm] at hr
    exact hr.inv_afterAcquire a
  | release =>
    obtain ⟨hl, hown, hm⟩ := hst
    rw [hl, hown, hm] at hr
    exact hr.inv_afterRelease a
  | pinCfg mode pull speed =>
    cases mode <;> obtain ⟨hl, hown, hm⟩ := hst <;> rw [hl, hown, hm] at hr
    · exact hr.inv_afterInert pull speed a
    · exact hr.inv_afterInitConfig pull speed a
  | pinWrite lv =>
    cases hl : s.lifecycle <;> rw [hl] at hst hr <;> obtain ⟨hown, hm⟩ := hst <;> rw [hown, hm] at hr
    · simpa [Machine.resume, hl] using hr.inv_afterInitLow lv a
    · simpa [Machine.resume, hl] using hr.inv_afterDeinitLow lv a
  | transmit bytes len timeout =>
    obtain ⟨hl, hown, hm⟩ := hst
    rw [hl, hown, hm] at hr
    exact hr.inv_afterTransmit hf a

end State.Inv

/-- Settles O47, by the cases of a step (`step_cases`): a command keeps the invariant when it begins (`State.Running.inv_exec`), while it
waits (`State.Inv.keepWaiting`) and when its answer comes (`State.Inv.resume`). -/
theorem everyStepKeepsInvariant : Obligations.EveryStepKeepsInvariant := by
  intro s t h hs
  obtain ⟨hl, ⟨-, rfl⟩ | ⟨-, hb, hc, o, ho, rfl⟩ | ⟨⟨-, -, hp, -, -⟩, ⟨-, rfl⟩ | ⟨w, rest, -, rfl⟩⟩ | ⟨w, ⟨-, hb, hp, -, -⟩, hrun⟩⟩ :=
    step_cases hs
  · exact State.inv_resetBlock hl
  · rcases s.await_cases o with ⟨-, e⟩ | ⟨-, e⟩ <;> rw [e]
    · exact h.keepWaiting hb hc ho _
    · exact h.resume hb hc ho _
  · exact h
  · exact h.accept hp w rest
  · have hr := h.running_dropCmd hb
    obtain ⟨e, -, rfl⟩ | ⟨i, -, hx⟩ := hrun
    · exact hr.inv_raise hp (h.resting hp) _
    · exact hr.inv_exec hp (h.resting hp) hx

/-! ## An idle block (R28, R33, R24) -/

/-- R103: no byte but the two patterns stands in an encoded colour. -/
theorem mem_encodePixel {p : Params} {r g b x : Byte} (h : x ∈ encodePixel p r g b) : x = p.pHi.byte ∨ x = p.pLo.byte := by
  have inByte {v : Byte} (hx : x ∈ encodeByte p v) : x = p.pHi.byte ∨ x = p.pLo.byte := by
    have hmap : encodeByte p v = ([7, 6, 5, 4, 3, 2, 1, 0].map fun n => encodeBit p (v.getLsbD n)) := rfl
    rw [hmap] at hx
    obtain ⟨n, -, rfl⟩ := List.mem_map.1 hx
    exact encodeBit_cases p _
  rcases List.mem_append.1 h with h | h
  · exact (List.mem_append.1 h).elim inByte inByte
  · exact inByte h

/-- R35: nothing is pending while `BUSY = 0`. -/
theorem State.Inv.pending_eq_none {s : State} (h : s.Inv) (hb : s.busy = false) : s.pending = none := by
  have hhand : s.cmd = none ∧ s.pending = none := by simpa [hb] using h.handshake.symm
  obtain ⟨-, hp⟩ := hhand
  exact hp

/-- Settles O49: the stage of a block without a pending request, the reset region, and each slot's encoding (`mem_encodePixel`). -/
theorem idleBlockMeetsR28 : Obligations.IdleBlockMeetsR28 := by
  intro s h hb
  have hrest := h.resting (h.pending_eq_none hb)
  refine ⟨fun hl => ?_, fun hl => ?_, fun a ha => h.fbOk.fbByte_of_ledLen_le ha, h.slots, fun a ha => ?_⟩
  · simpa [State.resting, hl] using hrest
  · simpa [State.resting, hl] using hrest
  · rw [Params.ledLen] at ha
    have hslot : slotBase (a / 24) + a % 24 = a := Nat.div_add_mod a 24
    have hj : a % 24 < 24 := Nat.mod_lt a (by decide)
    rcases h.slots (a / 24) (by omega) with hz | ⟨r, g, b, he⟩
    · exact .inl (hslot ▸ hz (a % 24) hj)
    · have hbyte := he (a % 24) hj
      rw [hslot, List.getD_eq_getElem _ _ (by simpa using hj)] at hbyte
      exact .inr (mem_encodePixel (hbyte ▸ List.getElem_mem _))

/-- Settles O50, by the step of an idle block (`step_of_idle`) and of a block that holds a word (`step_of_holds`). -/
theorem stepRunsTheOfferedCommand : Obligations.StepRunsTheOfferedCommand := by
  refine ⟨fun s w rest hi hp => ⟨step_of_idle s w rest hi hp, hi.accept w rest⟩, fun s w hw => ?_⟩
  rw [step_of_holds s w hw, runWord]
  exact ⟨fun i hd => by rw [hd]; rfl, fun e hd => by rw [hd]; rfl⟩

/-! The status word (R24): below a field stand the fields before it, whose widths tell where it is. -/

theorem getLsbD_bit_lifecycle (l : Lifecycle) : l.bit.getLsbD 0 = decide (l = .ready) := by cases l <;> rfl

theorem getLsbD_bit_pinMode (m : PinMode) : m.bit.getLsbD 0 = decide (m = .ppOut) := by cases m <;> rfl

theorem State.extractLsb'_statusWord_result (s : State) : s.statusWord.extractLsb' 2 3 = s.result.code := by
  iterate 2 refine (BitVec.extractLsb'_append_eq_of_le (by decide)).trans ?_
  exact BitVec.extractLsb'_append_eq_right

theorem State.extractLsb'_statusWord_reserved (s : State) : s.statusWord.extractLsb' 11 21 = 0 := by
  iterate 9 refine (BitVec.extractLsb'_append_eq_of_le (by decide)).trans ?_
  rfl

theorem State.statusWord_resetWith (p : Params) : (State.resetWith p).statusWord = 0 := by
  simp only [State.statusWord, State.resetWith, Lifecycle.bit, PinMode.bit, ResultCode.code]
  decide

theorem State.statusPort_of_idle {s : State} (hb : s.busy = false) : s.statusPort = s.statusWord := by simp [State.statusPort, hb]

/-- Settles O38: each bit of the status word is in the field that stands there, from the fields' widths. -/
theorem statusWordLayout : Obligations.StatusWordLayout := by
  refine ⟨fun s => ⟨fun hb => ?_, fun hb => ?_⟩, State.statusWord_resetWith⟩
  · rw [State.statusPort_of_idle hb, s.extractLsb'_statusWord_result, s.extractLsb'_statusWord_reserved]
    simp only [State.statusWord, BitVec.getLsbD_append, hb]
    refine ⟨getLsbD_bit_lifecycle _, rfl, ?result, ?stIdx, ?stXfer, ?stPre, ?stIll, ?busOwned, getLsbD_bit_pinMode _, trivial⟩
    case result => cases s.result <;> rfl
    all_goals simp
  · simp [State.statusPort, hb]

/-! ## What a step of a busy block changes (R22, R23, R25, R29, R30) -/

/-- The lifecycle state in which the command that sent a request ends `OK`, where it began in `l` (R130): a `PinWrite` is `INIT`'s or
`DEINIT`'s. -/
def Request.leadsTo (l : Lifecycle) : Request → Lifecycle
  | .acquire => .ready
  | .release => .uninit
  | .pinCfg .ppOut _ _ => .ready
  | .pinCfg .inert _ _ => .uninit
  | .pinWrite _ =>
    match l with
    | .uninit => .ready
    | .ready => .uninit
  | .transmit _ _ _ => l

/-- The lifecycle state in which a word that an `l` block runs ends `OK` (R130). -/
def leadsTo (l : Lifecycle) (w : Cmd) : Lifecycle :=
  match decode w with
  | .ok .init => .ready
  | .ok .deinit => .uninit
  | .ok (.setPixel _ _ _ _) => l
  | .ok (.setAll _ _ _) => l
  | .ok .send => l
  | .error _ => l

/-- From `s` to `u` a command has run up to one of its requests or to its end, and may still send `left` of the three requests of the longest
commands. -/
structure State.Midway (left : Nat) (s u : State) : Prop where
  cfg : u.cfg = s.cfg
  lifecycle : u.lifecycle = s.lifecycle
  busy : u.busy = true
  cmd : u.cmd = none
  pending : u.pending = none
  sticky : u.sticky = s.sticky
  trace : ∃ new : List Event, u.trace = s.trace ++ new ∧ new.length + left ≤ 3

/-- What a command leaves where its step ends: it waits for an answer, or completes `OK`, with `STATE` as before or at `l`, or raises. -/
inductive State.Ran (l : Lifecycle) (s : State) : State → Prop
  | waits {left : Nat} {u : State} (h : s.Midway left u) (o : Outstanding) : s.Ran l (u.setPending o)
  | completes {left : Nat} {u : State} (h : s.Midway left u) : s.Ran l u.complete
  | arrives {left : Nat} {u : State} (h : s.Midway left u) : s.Ran l (u.setLifecycle l).complete
  | raises {left : Nat} {u : State} (h : s.Midway left u) (c : ResultCode) : s.Ran l (u.raise c)

namespace State.Midway

variable {l : Lifecycle} {n : Nat} {s u : State}

theorem takeDraw (h : s.Midway n u) : s.Midway n u.takeDraw :=
  ⟨h.cfg, h.lifecycle, h.busy, h.cmd, h.pending, h.sticky, h.trace⟩

theorem setBusOwned (h : s.Midway n u) (b : Bool) : s.Midway n (u.setBusOwned b) :=
  ⟨h.cfg, h.lifecycle, h.busy, h.cmd, h.pending, h.sticky, h.trace⟩

theorem setPinMode (h : s.Midway n u) (m : PinMode) : s.Midway n (u.setPinMode m) :=
  ⟨h.cfg, h.lifecycle, h.busy, h.cmd, h.pending, h.sticky, h.trace⟩

theorem setFb (h : s.Midway n u) (m : Memory) : s.Midway n (u.setFb m) :=
  ⟨h.cfg, h.lifecycle, h.busy, h.cmd, h.pending, h.sticky, h.trace⟩

/-- An answer is one of the events a command may still add. -/
theorem record (h : s.Midway (n + 1) u) (r : Request) (a : Answer) : s.Midway n (u.record r a) := by
  obtain ⟨new, hnew, hlen⟩ := h.trace
  refine ⟨h.cfg, h.lifecycle, h.busy, h.cmd, rfl, h.sticky, new ++ [⟨r, a⟩], by simp [hnew], ?_⟩
  rw [List.length_append, List.length_singleton]
  omega

theorem trace_le (h : s.Midway n u) : ∃ new : List Event, u.trace = s.trace ++ new ∧ new.length ≤ 3 := by
  obtain ⟨new, hnew, hlen⟩ := h.trace
  exact ⟨new, hnew, by omega⟩

theorem ran_request (h : s.Midway (n + 1) u) (r : Request) {next : State → Answer → State}
    (now : ∀ (v : State) (a : Answer), s.Midway n v → s.Ran l (next v a)) : s.Ran l (u.request r next) :=
  State.request_elim (.waits h.takeDraw _) (now _ _ (h.takeDraw.record _ _))

/-! Each piece of a bus command after an answer, the last piece of each command first. -/

theorem ran_afterInitLow (h : s.Midway n u) (a : Answer) : s.Ran .ready (afterInitLow u a) := .arrives h

theorem ran_afterInert (h : s.Midway n u) (a : Answer) : s.Ran .uninit (afterInert u a) := .arrives (h.setPinMode _)

theorem ran_afterTransmit (h : s.Midway n u) (a : Answer) : s.Ran l (afterTransmit u a) := by
  unfold afterTransmit
  split
  · exact .completes h
  · exact .raises h _

theorem ran_afterDeinitLow (h : s.Midway (n + 1) u) (a : Answer) : s.Ran .uninit (afterDeinitLow u a) :=
  h.ran_request _ fun _ a hv => hv.ran_afterInert a

theorem ran_afterInitConfig (h : s.Midway (n + 1) u) (a : Answer) : s.Ran .ready (afterInitConfig u a) :=
  (h.setPinMode _).ran_request _ fun _ a hv => hv.ran_afterInitLow a

theorem ran_afterAcquire (h : s.Midway (n + 2) u) (a : Answer) : s.Ran .ready (afterAcquire u a) :=
  (h.setBusOwned _).ran_request _ fun _ a hv => hv.ran_afterInitConfig a

theorem ran_afterRelease (h : s.Midway (n + 2) u) (a : Answer) : s.Ran .uninit (afterRelease u a) :=
  (h.setBusOwned _).ran_request _ fun _ a hv => hv.ran_afterDeinitLow a

theorem ran_resume (h : s.Midway 2 u) (r : Request) (a : Answer) : s.Ran (r.leadsTo s.lifecycle) (resume u r a) := by
  cases r with
  | acquire => exact h.ran_afterAcquire a
  | release => exact h.ran_afterRelease a
  | pinCfg m _ _ =>
    cases m
    · exact h.ran_afterInert a
    · exact h.ran_afterInitConfig a
  | pinWrite _ =>
    rw [← h.lifecycle]
    cases hl : u.lifecycle
    · simpa [resume, Request.leadsTo, hl] using h.ran_afterInitLow a
    · simpa [resume, Request.leadsTo, hl] using h.ran_afterDeinitLow a
  | transmit _ _ _ => exact h.ran_afterTransmit a

/-- A command ends or waits in the step that runs it; only an `INIT` or a `DEINIT` may change `STATE`. -/
theorem ran_exec {t : State} (h : s.Midway 3 u) {i : Instr} (hInit : i = .init → l = .ready) (hDeinit : i = .deinit → l = .uninit)
    (hx : exec i u = .next t) : s.Ran l t := by
  cases i with
  | init =>
    obtain rfl := hInit rfl
    simp only [exec, execInit] at hx
    split at hx <;> cases hx
    · exact .raises h _
    · exact h.ran_request _ fun _ a hv => hv.ran_afterAcquire a
  | deinit =>
    obtain rfl := hDeinit rfl
    simp only [exec, execDeinit] at hx
    split at hx <;> cases hx
    · exact .raises h _
    · exact h.ran_request _ fun _ a hv => hv.ran_afterRelease a
  | setPixel idx r g b =>
    simp only [exec, execSetPixel_eq] at hx
    split_ifs at hx <;> cases hx
    · exact .raises h _
    · exact .raises h _
    · exact .completes (h.setFb _)
  | setAll r g b =>
    simp only [exec, execSetAll_eq] at hx
    split at hx <;> cases hx
    · exact .raises h _
    · exact .completes (h.setFb _)
  | send =>
    simp only [exec, execSend] at hx
    split at hx <;> cases hx
    · exact .raises h _
    · exact h.ran_request _ fun _ a hv => hv.ran_afterTransmit a

end State.Midway

/-- A step of a busy block runs the accepted word, or is one of a command that waits. -/
theorem step_busy {s t : State} (h : step s = .next t) (hr : s.rst = false) (hb : s.busy = true) :
    (∃ w, s.holds w ∧ s.Ran (leadsTo s.lifecycle w) t) ∨ ∃ o, s.pending = some o ∧ s.Ran (o.req.leadsTo s.lifecycle) t := by
  obtain ⟨-, ⟨hr', -⟩ | ⟨-, -, hc, o, ho, rfl⟩ | ⟨⟨-, hb', -⟩, -⟩ | ⟨w, hw, hrun⟩⟩ := step_cases h
  · simp [hr] at hr'
  · have hnow : s.Midway 3 { s with pending := none } := ⟨rfl, rfl, hb, hc, rfl, rfl, [], by simp, by simp⟩
    refine .inr ⟨o, ho, ?_⟩
    rcases s.await_cases o with ⟨-, e⟩ | ⟨-, e⟩ <;> rw [e]
    · exact .waits (u := { s with pending := none }.advance) ⟨hnow.cfg, hnow.lifecycle, hb, hc, rfl, hnow.sticky, hnow.trace⟩ _
    · exact (hnow.record o.req (o.draw.answer o.req)).ran_resume _ _
  · simp [hb] at hb'
  · have hnow : s.Midway 3 s.dropCmd := ⟨rfl, rfl, hb, rfl, hw.inProgress_dropCmd.pending, rfl, [], by simp, by simp⟩
    refine .inl ⟨w, hw, ?_⟩
    obtain ⟨e, -, rfl⟩ | ⟨i, hd, hx⟩ := hrun
    · exact .raises hnow _
    · refine hnow.ran_exec ?_ ?_ hx <;> rintro rfl <;> simp [leadsTo, hd]

/-- A step of a block that is not busy leaves it as it is, or accepts the word on the port. -/
theorem step_free {s t : State} (h : step s = .next t) (hr : s.rst = false) (hb : s.busy = false) :
    t = s ∨ s.idle ∧ ∃ w rest, s.program = w :: rest ∧ t = s.accept w rest := by
  obtain ⟨-, ⟨hr', -⟩ | ⟨-, hb', -⟩ | ⟨hi, ⟨-, rfl⟩ | haccept⟩ | ⟨w, ⟨-, hb', -⟩, -⟩⟩ := step_cases h
  · simp [hr] at hr'
  · simp [hb] at hb'
  · exact .inl rfl
  · exact .inr ⟨hi, haccept⟩
  · simp [hb] at hb'

namespace State.Ran

variable {l : Lifecycle} {s t : State}

theorem cfg (h : s.Ran l t) : t.cfg = s.cfg := by
  cases h with
  | waits h _ => exact h.cfg
  | completes h => exact h.cfg
  | arrives h => exact h.cfg
  | raises h c => simpa using h.cfg

theorem cmd (h : s.Ran l t) : t.cmd = none := by
  cases h with
  | waits h _ => exact h.cmd
  | completes h => exact h.cmd
  | arrives h => exact h.cmd
  | raises h c => simpa using h.cmd

theorem trace (h : s.Ran l t) : ∃ new : List Event, t.trace = s.trace ++ new ∧ new.length ≤ 3 := by
  cases h with
  | waits h _ => exact h.trace_le
  | completes h => exact h.trace_le
  | arrives h => exact h.trace_le
  | raises h c => simpa using h.trace_le

/-- A sticky bit stays as it was, unless the command raises its code (R25). -/
theorem sticky (h : s.Ran l t) (c : ResultCode) :
    t.sticky c = s.sticky c ∨ t.sticky c = true ∧ t.result = c ∧ t.busy = false := by
  cases h with
  | waits h _ => exact .inl (by simp [h.sticky])
  | completes h => exact .inl (by simp [h.sticky])
  | arrives h => exact .inl (by simp [h.sticky])
  | raises h d =>
    by_cases hd : d = c
    · exact .inr (by simp [State.raise_sticky, hd])
    · exact .inl (by simp [State.raise_sticky, hd, h.sticky])

/-- `STATE` changes only to `l`, and only when the command completes `OK` (R22). -/
theorem lifecycle (h : s.Ran l t) : t.lifecycle = s.lifecycle ∨ t.lifecycle = l ∧ t.busy = false ∧ t.result = .ok := by
  cases h with
  | waits h _ => exact .inl h.lifecycle
  | completes h => exact .inl h.lifecycle
  | arrives h => exact .inr ⟨rfl, rfl, rfl⟩
  | raises h c => exact .inl (by simpa using h.lifecycle)

/-- A command whose step leaves `BUSY = 0` has ended: no request is left, and `RESULT` has its sticky bit (R23, R25). -/
theorem ended (h : s.Ran l t) (hb : t.busy = false) : t.pending = none ∧ t.sticky t.result = true := by
  cases h with
  | waits h _ => simp [h.busy] at hb
  | completes h => exact ⟨h.pending, rfl⟩
  | arrives h => exact ⟨h.pending, rfl⟩
  | raises h c => simp [State.raise_sticky, h.pending]

end State.Ran

/-- Whatever command a busy block has in progress, its step runs it on. -/
theorem exists_ran_of_busy {s t : State} (h : step s = .next t) (hr : s.rst = false) (hb : s.busy = true) : ∃ l, s.Ran l t := by
  obtain ⟨w, -, hran⟩ | ⟨o, -, hran⟩ := step_busy h hr hb
  · exact ⟨_, hran⟩
  · exact ⟨_, hran⟩

/-- Settles O24: a step of a busy block marks at most the code it ends with (`State.Ran.sticky`), and any other step marks none. -/
theorem onlyResetClearsStickyBits : Obligations.OnlyResetClearsStickyBits := by
  intro s t c h hr
  have hsticky : t.sticky c = s.sticky c ∨ t.sticky c = true ∧ t.result = c ∧ t.busy = false := by
    cases hb : s.busy with
    | true =>
      obtain ⟨l, hran⟩ := exists_ran_of_busy h hr hb
      exact hran.sticky c
    | false =>
      obtain rfl | ⟨-, w, rest, -, rfl⟩ := step_free h hr hb
      · exact .inl rfl
      · exact .inl (State.accept_sticky ..)
  rcases hsticky with e | ⟨hc, hend⟩
  · exact ⟨e.trans, fun ht hs => by simp [e, hs] at ht⟩
  · exact ⟨fun _ => hc, fun _ _ => hend⟩

/-- Settles O43: only a reset empties `TRACE`, and a step of a busy block adds at most three events (`State.Ran.trace`). -/
theorem traceOnlyGrows : Obligations.TraceOnlyGrows := by
  intro s t h
  cases hr : s.rst with
  | true =>
    obtain ⟨-, ⟨-, rfl⟩ | ⟨hr', -⟩ | ⟨⟨-, -, -, -, hr'⟩, -⟩ | ⟨w, ⟨-, -, -, -, hr'⟩, -⟩⟩ := step_cases h
    · exact ⟨rfl, nofun⟩
    all_goals simp [hr] at hr'
  | false =>
    cases hb : s.busy with
    | true =>
      obtain ⟨l, hran⟩ := exists_ran_of_busy h hr hb
      exact ⟨hran.cfg, fun _ => hran.trace⟩
    | false =>
      obtain rfl | ⟨-, w, rest, -, rfl⟩ := step_free h hr hb
      · exact ⟨rfl, fun _ => ⟨[], by simp⟩⟩
      · exact ⟨rfl, fun _ => ⟨[], by simp⟩⟩

/-- Only an `INIT` leads elsewhere from `UNINIT`, only a `DEINIT` from `READY` (R130). -/
theorem of_leadsTo_ne {l : Lifecycle} {w : Cmd} (h : leadsTo l w ≠ l) :
    (l = .uninit ∧ leadsTo l w = .ready ∧ decode w = .ok .init) ∨ (l = .ready ∧ leadsTo l w = .uninit ∧ decode w = .ok .deinit) := by
  cases hd : decode w with
  | error e => simp [leadsTo, hd] at h
  | ok i =>
    cases i with
    | init => cases l <;> simp [leadsTo, hd] at h ⊢
    | deinit => cases l <;> simp [leadsTo, hd] at h ⊢
    | setPixel _ _ _ _ => simp [leadsTo, hd] at h
    | setAll _ _ _ => simp [leadsTo, hd] at h
    | send => simp [leadsTo, hd] at h

/-- Only the three requests of `INIT` lead elsewhere from `UNINIT`, only those of `DEINIT` from `READY` (R131, R134). -/
theorem Request.of_leadsTo_ne : ∀ {l : Lifecycle} {r : Request}, r.leadsTo l ≠ l →
    (l = .uninit ∧ r.leadsTo l = .ready ∧ (r = .acquire ∨ (∃ pull speed, r = .pinCfg .ppOut pull speed) ∨ r = .pinWrite .low)) ∨
    (l = .ready ∧ r.leadsTo l = .uninit ∧ (r = .release ∨ r = .pinWrite .low ∨ ∃ pull speed, r = .pinCfg .inert pull speed))
  | .uninit, .acquire, _ => .inl ⟨rfl, rfl, .inl rfl⟩
  | .uninit, .pinCfg .ppOut pull speed, _ => .inl ⟨rfl, rfl, .inr (.inl ⟨pull, speed, rfl⟩)⟩
  | .uninit, .pinWrite .low, _ => .inl ⟨rfl, rfl, .inr (.inr rfl)⟩
  | .ready, .release, _ => .inr ⟨rfl, rfl, .inl rfl⟩
  | .ready, .pinWrite .low, _ => .inr ⟨rfl, rfl, .inr (.inl rfl)⟩
  | .ready, .pinCfg .inert pull speed, _ => .inr ⟨rfl, rfl, .inr (.inr ⟨pull, speed, rfl⟩)⟩
  | .ready, .acquire, h | .ready, .pinCfg .ppOut _ _, h | .uninit, .release, h | .uninit, .pinCfg .inert _ _, h => absurd rfl h
  | _, .transmit _ _ _, h => absurd rfl h

/-- Settles O41: a step that changes `STATE` ends the command it runs, at the state that command leads to (`State.Ran.lifecycle`). -/
theorem onlyInitAndDeinitChangeState : Obligations.OnlyInitAndDeinitChangeState := by
  intro s t h hr hne
  cases hb : s.busy with
  | true =>
    obtain ⟨w, hw, hran⟩ | ⟨o, ho, hran⟩ := step_busy h hr hb
    · obtain ⟨hl, hend, hok⟩ := hran.lifecycle.resolve_left hne
      exact ⟨hend, hok, (of_leadsTo_ne (hl ▸ hne)).imp (fun ⟨h0, h1, hd⟩ => ⟨h0, hl.trans h1, .inl ⟨w, hw, hd⟩⟩)
        fun ⟨h0, h1, hd⟩ => ⟨h0, hl.trans h1, .inl ⟨w, hw, hd⟩⟩⟩
    · obtain ⟨hl, hend, hok⟩ := hran.lifecycle.resolve_left hne
      exact ⟨hend, hok, (Request.of_leadsTo_ne (hl ▸ hne)).imp (fun ⟨h0, h1, hr⟩ => ⟨h0, hl.trans h1, .inr ⟨o, ho, hr⟩⟩)
        fun ⟨h0, h1, hr⟩ => ⟨h0, hl.trans h1, .inr ⟨o, ho, hr⟩⟩⟩
  | false =>
    obtain rfl | ⟨-, w, rest, -, rfl⟩ := step_free h hr hb
    · exact absurd rfl hne
    · exact absurd rfl hne

/-- Settles O53: acceptance is `step_of_idle`, a busy block's step that ends a command leaves none in progress (`State.Ran.ended`), and
`BUSY` is the invariant's. -/
theorem busyFromAcceptanceToEnd : Obligations.BusyFromAcceptanceToEnd := by
  refine ⟨fun s w rest hi hp => step_of_idle s w rest hi hp, fun s t h hb hb' => ?_, fun s t h hr hb hb' => ?_, fun s t hi h hcmd => ?_⟩
  · obtain ⟨-, ⟨-, rfl⟩ | ⟨-, hs, -⟩ | ⟨hi, ⟨-, rfl⟩ | ⟨w, rest, hp, rfl⟩⟩ | ⟨w, ⟨-, hs, -⟩, -⟩⟩ := step_cases h
    · cases hb'
    · simp [hb] at hs
    · simp [hb] at hb'
    · exact ⟨w, hp, hi.accept w rest⟩
    · simp [hb] at hs
  · obtain ⟨l, hran⟩ := exists_ran_of_busy h hr hb
    exact ⟨hran.cmd, hran.ended hb'⟩
  · have ht : t.Inv := everyStepKeepsInvariant s t hi h
    rw [ht.handshake, Bool.or_eq_true]
    simpa [Option.isSome_iff_ne_none] using hcmd

/-! ## What a command reads (R31)

Two commands run side by side, from `s` to `u` and from `t` to `v`. `State.Alike` holds as long as both run, `SameEffect` where both stop. -/

theorem State.agree.cfg_eq {u v : State} (h : u.agree v) : u.cfg = v.cfg := by
  obtain ⟨hcfg, -⟩ := h
  exact hcfg

theorem State.agree.lifecycle_eq {u v : State} (h : u.agree v) : u.lifecycle = v.lifecycle := by
  obtain ⟨-, -, hl, -⟩ := h
  exact hl

theorem State.agree.frame_eq {u v : State} (h : u.agree v) : u.frame = v.frame := by
  obtain ⟨hcfg, hfb, -⟩ := h
  rw [State.frame, hcfg, hfb, State.frame]

theorem State.agree.draw_eq {u v : State} (h : u.agree v) : u.draw 0 = v.draw 0 := by
  obtain ⟨-, -, -, -, -, hscript, hdraws⟩ := h
  exact State.draw_congr v u 0 hscript hdraws

/-- Both commands run: the states agree on what commands read, wait for the same, and have added the same events to `TRACE`. -/
structure State.Alike (s t u v : State) : Prop where
  agree : u.agree v
  busy : u.busy = true ∧ v.busy = true
  pending : u.pending = v.pending
  trace : ∃ new : List Event, u.trace = s.trace ++ new ∧ v.trace = t.trace ++ new

namespace State.Alike

variable {s t u v : State}

theorem takeDraw (h : s.Alike t u v) : s.Alike t u.takeDraw v.takeDraw := by
  obtain ⟨hcfg, hfb, hl, hown, hm, hscript, hdraws⟩ := h.agree
  exact ⟨⟨hcfg, hfb, hl, hown, hm, congrArg (·.drop 1) hscript, congrArg (· + 1) hdraws⟩, h.busy, h.pending, h.trace⟩

theorem advance (h : s.Alike t u v) : s.Alike t u.advance v.advance := by
  obtain ⟨hcfg, hfb, hl, hown, hm, hscript, hdraws⟩ := h.agree
  exact ⟨⟨hcfg, hfb, hl, hown, hm, hscript, congrArg (· + 1) hdraws⟩, h.busy, h.pending, h.trace⟩

theorem setBusOwned (h : s.Alike t u v) (b : Bool) : s.Alike t (u.setBusOwned b) (v.setBusOwned b) := by
  obtain ⟨hcfg, hfb, hl, -, hrest⟩ := h.agree
  exact ⟨⟨hcfg, hfb, hl, rfl, hrest⟩, h.busy, h.pending, h.trace⟩

theorem setPinMode (h : s.Alike t u v) (m : PinMode) : s.Alike t (u.setPinMode m) (v.setPinMode m) := by
  obtain ⟨hcfg, hfb, hl, hown, -, hrest⟩ := h.agree
  exact ⟨⟨hcfg, hfb, hl, hown, rfl, hrest⟩, h.busy, h.pending, h.trace⟩

theorem setLifecycle (h : s.Alike t u v) (l : Lifecycle) : s.Alike t (u.setLifecycle l) (v.setLifecycle l) := by
  obtain ⟨hcfg, hfb, -, hrest⟩ := h.agree
  exact ⟨⟨hcfg, hfb, rfl, hrest⟩, h.busy, h.pending, h.trace⟩

theorem setFb (h : s.Alike t u v) (m : Memory) : s.Alike t (u.setFb m) (v.setFb m) := by
  obtain ⟨hcfg, -, hrest⟩ := h.agree
  exact ⟨⟨hcfg, rfl, hrest⟩, h.busy, h.pending, h.trace⟩

theorem setPending (h : s.Alike t u v) (o : Outstanding) : s.Alike t (u.setPending o) (v.setPending o) :=
  ⟨h.agree, h.busy, rfl, h.trace⟩

theorem dropCmd (h : s.Alike t u v) : s.Alike t u.dropCmd v.dropCmd := ⟨h.agree, h.busy, h.pending, h.trace⟩

theorem record (h : s.Alike t u v) (r : Request) (a : Answer) : s.Alike t (u.record r a) (v.record r a) := by
  obtain ⟨new, hu, hv⟩ := h.trace
  exact ⟨h.agree, h.busy, rfl, new ++ [⟨r, a⟩], by simp [hu], by simp [hv]⟩

/-! How both stop: they wait, or they end the same way. -/

theorem sameEffect (h : s.Alike t u v) : SameEffect s t u v :=
  ⟨h.agree, by simp [h.busy], h.pending, by simp [h.busy], h.trace⟩

theorem sameEffect_complete (h : s.Alike t u v) : SameEffect s t u.complete v.complete :=
  ⟨h.agree, rfl, h.pending, fun _ => rfl, h.trace⟩

theorem sameEffect_raise (h : s.Alike t u v) (c : ResultCode) : SameEffect s t (u.raise c) (v.raise c) :=
  ⟨by simpa [State.agree] using h.agree, by simp, by simpa using h.pending, by simp, by simpa using h.trace⟩

theorem sameEffect_request (h : s.Alike t u v) (r : Request) {next : State → Answer → State}
    (now : ∀ (u' v' : State) (a : Answer), s.Alike t u' v' → SameEffect s t (next u' a) (next v' a)) :
    SameEffect s t (u.request r next) (v.request r next) := by
  have hdraw := h.agree.draw_eq
  cases ha : (u.draw 0).answers r with
  | true =>
    rw [State.request_now u r next ha, State.request_now v r next (hdraw ▸ ha), ← hdraw]
    exact now _ _ _ (h.takeDraw.record _ _)
  | false =>
    rw [State.request_later u r next ha, State.request_later v r next (hdraw ▸ ha), ← hdraw]
    exact (h.takeDraw.setPending _).sameEffect

/-! Each piece of a bus command after an answer, the last piece of each command first. -/

theorem sameEffect_afterInitLow (h : s.Alike t u v) (a : Answer) : SameEffect s t (afterInitLow u a) (afterInitLow v a) :=
  (h.setLifecycle _).sameEffect_complete

theorem sameEffect_afterInert (h : s.Alike t u v) (a : Answer) : SameEffect s t (afterInert u a) (afterInert v a) :=
  ((h.setPinMode _).setLifecycle _).sameEffect_complete

theorem sameEffect_afterTransmit (h : s.Alike t u v) (a : Answer) : SameEffect s t (afterTransmit u a) (afterTransmit v a) := by
  unfold afterTransmit
  split
  · exact h.sameEffect_complete
  · exact h.sameEffect_raise _

theorem sameEffect_afterDeinitLow (h : s.Alike t u v) (a : Answer) : SameEffect s t (afterDeinitLow u a) (afterDeinitLow v a) :=
  h.sameEffect_request _ fun _ _ a h => h.sameEffect_afterInert a

theorem sameEffect_afterInitConfig (h : s.Alike t u v) (a : Answer) : SameEffect s t (afterInitConfig u a) (afterInitConfig v a) :=
  (h.setPinMode _).sameEffect_request _ fun _ _ a h => h.sameEffect_afterInitLow a

theorem sameEffect_afterAcquire (h : s.Alike t u v) (a : Answer) : SameEffect s t (afterAcquire u a) (afterAcquire v a) := by
  rw [afterAcquire, afterAcquire, h.agree.cfg_eq]
  exact (h.setBusOwned _).sameEffect_request _ fun _ _ a h => h.sameEffect_afterInitConfig a

theorem sameEffect_afterRelease (h : s.Alike t u v) (a : Answer) : SameEffect s t (afterRelease u a) (afterRelease v a) :=
  (h.setBusOwned _).sameEffect_request _ fun _ _ a h => h.sameEffect_afterDeinitLow a

theorem sameEffect_resume (h : s.Alike t u v) (r : Request) (a : Answer) : SameEffect s t (resume u r a) (resume v r a) := by
  cases r with
  | acquire => exact h.sameEffect_afterAcquire a
  | release => exact h.sameEffect_afterRelease a
  | pinCfg m _ _ =>
    cases m
    · exact h.sameEffect_afterInert a
    · exact h.sameEffect_afterInitConfig a
  | pinWrite _ =>
    simp only [resume, h.agree.lifecycle_eq]
    split
    · exact h.sameEffect_afterInitLow a
    · exact h.sameEffect_afterDeinitLow a
  | transmit _ _ _ => exact h.sameEffect_afterTransmit a

theorem sameEffect_await (h : s.Alike t u v) (o : Outstanding) : SameEffect s t (u.await o) (v.await o) := by
  unfold State.await
  split
  · exact (h.record _ _).sameEffect_resume _ _
  · exact (h.setPending _).advance.sameEffect

/-- A meaning does the same from two states that agree, whatever else they hold. -/
theorem sameEffect_exec (h : s.Alike t u v) (i : Instr) :
    ∃ u' v', exec i u = .next u' ∧ exec i v = .next v' ∧ SameEffect s t u' v' := by
  obtain ⟨hcfg, hfb, -⟩ := h.agree
  cases i with
  | init =>
    simp only [exec, execInit, h.agree.lifecycle_eq]
    split
    · exact ⟨_, _, rfl, rfl, h.sameEffect_raise _⟩
    · exact ⟨_, _, rfl, rfl, h.sameEffect_request _ fun _ _ a h => h.sameEffect_afterAcquire a⟩
  | deinit =>
    simp only [exec, execDeinit, h.agree.lifecycle_eq]
    split
    · exact ⟨_, _, rfl, rfl, h.sameEffect_raise _⟩
    · exact ⟨_, _, rfl, rfl, h.sameEffect_request _ fun _ _ a h => h.sameEffect_afterRelease a⟩
  | setPixel idx r g b =>
    simp only [exec, execSetPixel_eq, h.agree.lifecycle_eq, hcfg, hfb]
    split_ifs
    · exact ⟨_, _, rfl, rfl, h.sameEffect_raise _⟩
    · exact ⟨_, _, rfl, rfl, h.sameEffect_raise _⟩
    · exact ⟨_, _, rfl, rfl, (h.setFb _).sameEffect_complete⟩
  | setAll r g b =>
    simp only [exec, execSetAll_eq, h.agree.lifecycle_eq, hcfg, hfb]
    split
    · exact ⟨_, _, rfl, rfl, h.sameEffect_raise _⟩
    · exact ⟨_, _, rfl, rfl, (h.setFb _).sameEffect_complete⟩
  | send =>
    simp only [exec, execSend, h.agree.lifecycle_eq, hcfg, h.agree.frame_eq]
    split
    · exact ⟨_, _, rfl, rfl, h.sameEffect_raise _⟩
    · exact ⟨_, _, rfl, rfl, h.sameEffect_request _ fun _ _ a h => h.sameEffect_afterTransmit a⟩

theorem sameEffect_runWord (h : s.Alike t u v) (w : Cmd) :
    ∃ u' v', runWord w u = .next u' ∧ runWord w v = .next v' ∧ SameEffect s t u' v' := by
  unfold runWord
  split
  · exact h.sameEffect_exec _
  · exact ⟨_, _, rfl, rfl, h.sameEffect_raise _⟩

/-- A step of two busy blocks that agree and hold the same word, or wait for the same answer. -/
theorem sameEffect_step (h : s.Alike t u v) (hl : u.cfg.legal = true) (hru : u.rst = false) (hrv : v.rst = false) (hc : u.cmd = v.cmd)
    (hone : (u.cmd = none ∧ u.pending ≠ none) ∨ (u.cmd ≠ none ∧ u.pending = none)) :
    ∃ u' v', step u = .next u' ∧ step v = .next v' ∧ SameEffect s t u' v' := by
  have hl' : v.cfg.legal = true := h.agree.cfg_eq ▸ hl
  obtain ⟨hbu, hbv⟩ := h.busy
  obtain ⟨hnone, hp⟩ | ⟨hsome, hp⟩ := hone
  · obtain ⟨o, ho⟩ := Option.ne_none_iff_exists'.1 hp
    exact ⟨_, _, step_of_waiting u o hl hbu ho hnone hru, step_of_waiting v o hl' hbv (h.pending ▸ ho) (hc ▸ hnone) hrv,
      h.sameEffect_await o⟩
  · obtain ⟨w, hw⟩ := Option.ne_none_iff_exists'.1 hsome
    rw [step_of_holds u w ⟨hl, hbu, hp, hw, hru⟩, step_of_holds v w ⟨hl', hbv, h.pending ▸ hp, hc ▸ hw, hrv⟩]
    exact h.dropCmd.sameEffect_runWord w

end State.Alike

/-- Settles O44: two states that agree are alike, and stay so through every piece of a command (`State.Alike.sameEffect_exec`,
`State.Alike.sameEffect_step`); neither holds a word after the step that runs it. -/
theorem commandsReadOnlyTheNamedState : Obligations.CommandsReadOnlyTheNamedState := by
  have alike {s t : State} (h : s.agree t) (hs : s.busy = true) (ht : t.busy = true) (hp : s.pending = t.pending) : s.Alike t s t :=
    ⟨h, ⟨hs, ht⟩, hp, [], by simp⟩
  refine ⟨fun i s t h hs ht hps hpt => (alike h hs ht (hps.trans hpt.symm)).sameEffect_exec i, ?_⟩
  intro s t h hl hrs hrt hs ht hc hp hone
  obtain ⟨s', t', hstep, hstep', heff⟩ := (alike h hs ht hp).sameEffect_step hl hrs hrt hc hone
  obtain ⟨l, hran⟩ := exists_ran_of_busy hstep hrs hs
  obtain ⟨l', hran'⟩ := exists_ran_of_busy hstep' hrt ht
  exact ⟨s', t', hstep, hstep', hran.cmd.trans hran'.cmd.symm, heff⟩

end Sys2Proof.Machine

/-! PROOFS of the family 20_memory.md: offsets (R51, R52), the frame on the wire (R53), the read port (R56), what writes `FB` (R57), and
how commands are taken from the port (R61). -/

namespace Sys2Proof.Machine

/-! ## Offsets (R51, R52) -/

/-- The channel of a number (R51). -/
def Channel.ofNumber (k : Nat) : Channel := if k = 0 then .green else if k = 1 then .red else .blue

@[simp] theorem Channel.ofNumber_number (c : Channel) : Channel.ofNumber c.number = c := by cases c <;> rfl

theorem Channel.number_ofNumber {k : Nat} (hk : k < 3) : (Channel.ofNumber k).number = k := by interval_cases k <;> rfl

theorem Channel.number_lt (c : Channel) : c.number < 3 := by cases c <;> decide

theorem locate_of_lt_ledLen {p : Params} {a : Nat} (h : a < p.ledLen) :
    locate p a = .led (a / 24) (.ofNumber (a % 24 / 8)) (7 - a % 8) := if_pos h

theorem ledLen_le_fbLen (p : Params) : p.ledLen ≤ p.fbLen := Nat.le_add_right _ _

theorem bitOffset_lt_ledLen {p : Params} {i : Nat} (hi : i < p.nLeds) (c : Channel) (n : Nat) : bitOffset i c n < p.ledLen := by
  have hc := c.number_lt
  simp only [bitOffset, slotBase, Params.ledLen]
  omega

/-- The offset of a colour bit reads back as that bit: LED, channel and bit are the quotients and the remainder. -/
theorem locate_bitOffset {p : Params} {i n : Nat} (hi : i < p.nLeds) (c : Channel) (hn : n ≤ 7) :
    locate p (bitOffset i c n) = .led i c n := by
  rw [locate_of_lt_ledLen (bitOffset_lt_ledLen hi c n)]
  have hc := c.number_lt
  have hled : bitOffset i c n / 24 = i := by simp only [bitOffset, slotBase]; omega
  have hchannel : bitOffset i c n % 24 / 8 = c.number := by simp only [bitOffset, slotBase]; omega
  have hbit : 7 - bitOffset i c n % 8 = n := by simp only [bitOffset, slotBase]; omega
  rw [hled, hchannel, hbit, Channel.ofNumber_number]

/-- Settles O15: `locate_bitOffset` one way, and the other way the division of an offset by 24 and by 8. -/
theorem offsetsReadBack : Obligations.OffsetsReadBack := by
  refine fun p => ⟨fun i c n hi hn => ⟨rfl, bitOffset_lt_ledLen hi c n, locate_bitOffset hi c hn⟩, fun a ha => ?_, fun a ha ha' => ?_,
    fun a ha => ?_⟩
  · refine ⟨_, _, _, locate_of_lt_ledLen ha, ?_, Nat.sub_le _ _, ?_⟩
    · rw [Params.ledLen] at ha
      omega
    · rw [bitOffset, slotBase, Channel.number_ofNumber (by omega)]
      omega
  · rw [locate, if_neg (by omega), if_pos ha']
  · have hle := ledLen_le_fbLen p
    rw [locate, if_neg (by omega), if_neg (by omega)]

/-! ## The frame on the wire (R53) -/

theorem length_byteBits (v : Byte) : (byteBits v).length = 8 := rfl

theorem wireBits_cons (v : Byte) (bytes : List Byte) : wireBits (v :: bytes) = byteBits v ++ wireBits bytes := rfl

theorem getElem?_byteBits (v : Byte) {k : Nat} (hk : k < 8) : (byteBits v)[k]? = some (v.getLsbD (7 - k)) := by
  interval_cases k <;> rfl

theorem length_wireBits (bytes : List Byte) : (wireBits bytes).length = 8 * bytes.length := by
  induction bytes with
  | nil => rfl
  | cons v bytes ih =>
    rw [wireBits_cons, List.length_append, length_byteBits, ih, List.length_cons]
    omega

/-- Bit `8 * a + k` on the wire is bit `7 - k` of byte `a`: eight bits of each byte, one byte after the other. -/
theorem getElem?_wireBits (bytes : List Byte) (a : Nat) {k : Nat} (hk : k < 8) :
    (wireBits bytes)[8 * a + k]? = bytes[a]?.map fun v => v.getLsbD (7 - k) := by
  induction bytes generalizing a with
  | nil => rfl
  | cons v bytes ih =>
    have hlen := length_byteBits v
    rw [wireBits_cons]
    cases a with
    | zero =>
      rw [List.getElem?_append_left (by omega), Nat.mul_zero, Nat.zero_add, getElem?_byteBits v hk]
      rfl
    | succ a =>
      rw [List.getElem?_append_right (by omega), hlen, show 8 * (a + 1) + k - 8 = 8 * a + k by omega, ih]
      rfl

theorem State.getElem?_frame (s : State) {a : Nat} (ha : a < s.cfg.fbLen) : s.frame[a]? = some (s.fbByte a) := by
  simp [State.frame, State.fbByte, ha]

@[simp] theorem afterTransmit_trace (s : State) (a : Answer) : (afterTransmit s a).trace = s.trace := by
  unfold afterTransmit
  split
  · rfl
  · exact State.raise_trace _ _

/-- A `SEND` in `READY` whose answer is there at once adds one transmit event of the whole frame (R137). -/
theorem exec_send_trace_of_prompt {s : State} (hl : s.lifecycle = .ready) (hp : s.prompt 1) :
    ∃ t a, exec .send s = .next t ∧ t.trace = s.trace ++ [⟨.transmit s.frame s.cfg.fbLen s.cfg.timeout, a⟩] := by
  have hanswers : (s.draw 0).answers (.transmit s.frame s.cfg.fbLen s.cfg.timeout) = true :=
    (Draw_answers_iff _ _).2 ⟨hp 0 one_pos, nofun⟩
  refine ⟨_, (s.draw 0).answer (.transmit s.frame s.cfg.fbLen s.cfg.timeout), if_neg (not_not.2 hl), ?_⟩
  rw [State.request_now _ _ _ hanswers, afterTransmit_trace]
  rfl

/-- Settles O34: the event of a prompt `SEND` carries the frame, whose bytes are those of `FB` and whose bits are `getElem?_wireBits`. -/
theorem frameGoesOutInOrder : Obligations.FrameGoesOutInOrder := by
  refine fun s => ⟨exec_send_trace_of_prompt, length_frame s, fun a ha => s.getElem?_frame ha, ?_, fun a ha k hk => ?_⟩
  · rw [length_wireBits, length_frame]
  · rw [getElem?_wireBits _ _ hk, s.getElem?_frame ha]
    rfl

/-! ## What writes the frame buffer (R57) -/

/-! The bus commands, piece by piece: none writes `FB`. -/

theorem State.request_fb {s : State} {r : Request} {next : State → Answer → State} (h : ∀ u a, (next u a).fb = u.fb) :
    (s.request r next).fb = s.fb :=
  State.request_elim (P := fun u => u.fb = s.fb) rfl (h _ _)

theorem afterInitLow_fb (s : State) (a : Answer) : (afterInitLow s a).fb = s.fb := rfl

theorem afterInert_fb (s : State) (a : Answer) : (afterInert s a).fb = s.fb := rfl

theorem afterTransmit_fb (s : State) (a : Answer) : (afterTransmit s a).fb = s.fb := by
  unfold afterTransmit
  split
  · rfl
  · exact State.raise_fb _ _

theorem afterDeinitLow_fb (s : State) (a : Answer) : (afterDeinitLow s a).fb = s.fb := State.request_fb afterInert_fb

theorem afterInitConfig_fb (s : State) (a : Answer) : (afterInitConfig s a).fb = s.fb := State.request_fb afterInitLow_fb

theorem afterAcquire_fb (s : State) (a : Answer) : (afterAcquire s a).fb = s.fb := State.request_fb afterInitConfig_fb

theorem afterRelease_fb (s : State) (a : Answer) : (afterRelease s a).fb = s.fb := State.request_fb afterDeinitLow_fb

theorem resume_fb (s : State) (r : Request) (a : Answer) : (resume s r a).fb = s.fb := by
  cases r with
  | acquire => exact afterAcquire_fb s a
  | release => exact afterRelease_fb s a
  | pinCfg m _ _ =>
    cases m
    · exact afterInert_fb s a
    · exact afterInitConfig_fb s a
  | pinWrite _ =>
    simp only [resume]
    split
    · exact afterInitLow_fb s a
    · exact afterDeinitLow_fb s a
  | transmit _ _ _ => exact afterTransmit_fb s a

theorem State.await_fb (s : State) (o : Outstanding) : (s.await o).fb = s.fb := by
  rcases s.await_cases o with ⟨-, e⟩ | ⟨-, e⟩ <;> rw [e]
  · rfl
  · exact resume_fb _ _ _

theorem State.painted_fb (s : State) (m : Memory) : (s.painted m).fb = m := rfl

/-- The memory a command leaves: as it was, or painted by the pixel command of a `READY` block (R57). -/
theorem exec_fb_cases {i : Instr} {s t : State} (h : exec i s = .next t) :
    t.fb = s.fb ∨ s.lifecycle = .ready ∧
      ((∃ idx r g b, i = .setPixel idx r g b ∧ idx.toNat < s.cfg.nLeds ∧
          t.fb = s.fb.writeBytes (slotBase idx.toNat) (encodePixel s.cfg r g b)) ∨
        ∃ r g b, i = .setAll r g b ∧ t.fb = fillSlots s.fb (encodePixel s.cfg r g b) s.cfg.nLeds) := by
  cases i with
  | init =>
    simp only [exec, execInit] at h
    split at h <;> cases h
    · exact .inl (State.raise_fb _ _)
    · exact .inl (State.request_fb afterAcquire_fb)
  | deinit =>
    simp only [exec, execDeinit] at h
    split at h <;> cases h
    · exact .inl (State.raise_fb _ _)
    · exact .inl (State.request_fb afterRelease_fb)
  | setPixel idx r g b =>
    simp only [exec, execSetPixel_eq] at h
    split_ifs at h with hl hi <;> cases h
    · exact .inl (State.raise_fb _ _)
    · exact .inl (State.raise_fb _ _)
    · exact .inr ⟨not_not.1 hl, .inl ⟨idx, r, g, b, rfl, not_le.1 hi, s.painted_fb _⟩⟩
  | setAll r g b =>
    simp only [exec, execSetAll_eq] at h
    split at h <;> cases h
    · exact .inl (State.raise_fb _ _)
    · next hl => exact .inr ⟨not_not.1 hl, .inr ⟨r, g, b, rfl, s.painted_fb _⟩⟩
  | send =>
    simp only [exec, execSend] at h
    split at h <;> cases h
    · exact .inl (State.raise_fb _ _)
    · exact .inl (State.request_fb afterTransmit_fb)

theorem getD_encodePixel (p : Params) (r g b : Byte) {j : Nat} (hj : j < 24) :
    (encodePixel p r g b).getD j 0 = p.pHi.byte ∨ (encodePixel p r g b).getD j 0 = p.pLo.byte := by
  have hlen : j < (encodePixel p r g b).length := by rwa [length_encodePixel]
  have hmem : (encodePixel p r g b).getD j 0 ∈ encodePixel p r g b := by
    rw [(encodePixel p r g b).getD_eq_getElem 0 hlen]
    exact List.getElem_mem hlen
  exact mem_encodePixel hmem

/-- A byte that a command changes: the command is a pixel command in `READY`, the byte is in the LED part and becomes a pattern (R57). -/
theorem exec_changes_byte {i : Instr} {s t : State} {a : Nat} (hwf : s.fb.wf = true) (h : exec i s = .next t)
    (hne : t.fbByte a ≠ s.fbByte a) :
    s.lifecycle = .ready ∧ a < s.cfg.ledLen ∧ (t.fbByte a = s.cfg.pHi.byte ∨ t.fbByte a = s.cfg.pLo.byte) ∧
      (i.mnemonic = .SET_PIXEL ∨ i.mnemonic = .SET_ALL) := by
  simp only [State.fbByte, Params.ledLen] at hne ⊢
  obtain e | ⟨hl, ⟨idx, r, g, b, rfl, hi, e⟩ | ⟨r, g, b, rfl, e⟩⟩ := exec_fb_cases h
  · exact absurd (congrArg (Memory.read · a) e) hne
  · rw [e, Memory.read_writeBytes _ _ _ _ hwf, length_encodePixel] at hne ⊢
    have ha : slotBase idx.toNat ≤ a ∧ a < slotBase idx.toNat + 24 := by
      by_contra hout
      exact hne (if_neg hout)
    rw [if_pos ha]
    rw [slotBase] at ha ⊢
    exact ⟨hl, by omega, getD_encodePixel s.cfg r g b (by omega), .inl rfl⟩
  · rw [e, read_fillSlots _ _ (length_encodePixel ..) _ _ hwf] at hne ⊢
    have ha : a < 24 * s.cfg.nLeds := by
      by_contra hout
      exact hne (if_neg hout)
    rw [if_pos ha]
    exact ⟨hl, ha, getD_encodePixel s.cfg r g b (Nat.mod_lt _ (by decide)), .inr rfl⟩

/-- Settles O40, by the cases of a step: a reset empties `FB`, a command that runs changes it as `exec_changes_byte` says, and no other step
changes it. -/
theorem onlyResetAndPixelCommandsWriteFb : Obligations.OnlyResetAndPixelCommandsWriteFb := by
  intro s t a hwf h hne
  obtain ⟨-, ⟨hr, rfl⟩ | ⟨-, -, -, o, -, rfl⟩ | ⟨-, ⟨-, rfl⟩ | ⟨w, rest, -, rfl⟩⟩ | ⟨w, hw, ⟨e, -, rfl⟩ | ⟨i, hd, hx⟩⟩⟩ := step_cases h
  · exact .inl ⟨hr, rfl⟩
  · exact absurd (congrArg (Memory.read · a) (s.await_fb o)) hne
  · exact absurd rfl hne
  · exact absurd rfl hne
  · exact absurd rfl hne
  · obtain ⟨hl, ha, hbyte, hm⟩ := exec_changes_byte (s := s.dropCmd) hwf hx hne
    exact .inr ⟨hw.inProgress_dropCmd.rst, hl, ha, hbyte, w, i, hw, hd, hm⟩

/-! ## The command port and the read port (R61, R56) -/

/-- A step leaves the offered commands, or an idle block takes the first of them (R193): a command that runs or waits takes none
(`State.Moved`). -/
theorem step_program {s t : State} (h : step s = .next t) :
    t.program = s.program ∨ (s.idle ∧ ∃ w, s.program = w :: t.program ∧ t.holds w) := by
  obtain ⟨-, ⟨-, rfl⟩ | ⟨-, -, -, o, -, rfl⟩ | ⟨hi, ⟨-, rfl⟩ | ⟨w, rest, hp, rfl⟩⟩ | ⟨w, -, ⟨e, -, rfl⟩ | ⟨i, -, hx⟩⟩⟩ := step_cases h
  · exact .inl rfl
  · rcases s.await_cases o with ⟨-, e⟩ | ⟨-, e⟩ <;> rw [e]
    · exact .inl rfl
    · obtain ⟨-, hprogram, -⟩ :=
        State.Moved.resume (s := s) (v := s.record o.req (o.draw.answer o.req)) o.req (o.draw.answer o.req) le_rfl rfl
      exact .inl hprogram
  · exact .inl rfl
  · exact .inr ⟨hi, w, hp, hi.accept w rest⟩
  · exact .inl (State.raise_program _ _)
  · obtain ⟨-, hprogram, -⟩ := State.Moved.exec hx
    exact .inl hprogram

/-- Settles O42: what a step takes (`step_program`) it takes from an idle block, which is not busy. -/
theorem commandsAreTakenOneAtATime : Obligations.CommandsAreTakenOneAtATime := by
  refine fun s t h => ⟨fun hb => (step_program h).resolve_right ?_, step_program h⟩
  rintro ⟨⟨-, hfree, -⟩, -⟩
  simp [hb] at hfree

/-- Settles O39: while `BUSY = 0` the port takes no free value. -/
theorem readPortShowsFrameBuffer : Obligations.ReadPortShowsFrameBuffer := by
  intro s addr hb
  rw [State.rdData, if_neg (by simp [hb])]
  rfl

end Sys2Proof.Machine

/-! PROOFS of the family 30_encoding.md: command words (R70 to R73), the opcode table (R72), the assembler (R76 to R78), and what an illegal
or a placed word leads to (R74, R164). -/

namespace Sys2Proof

/-! ## The fields of a command word (R70, R71)

A word is its five fields side by side (`cmd64_fields`), and each field of a word put together reads back. -/

section

variable (idx : Word32) (b g r op : Byte) (w : Cmd)

@[simp] theorem opField_cmd64 : opField (cmd64 idx b g r op) = op := BitVec.extractLsb'_append_eq_right

@[simp] theorem rField_cmd64 : rField (cmd64 idx b g r op) = r :=
  (BitVec.extractLsb'_append_eq_of_le (by decide)).trans BitVec.extractLsb'_append_eq_right

@[simp] theorem gField_cmd64 : gField (cmd64 idx b g r op) = g := by
  iterate 2 refine (BitVec.extractLsb'_append_eq_of_le (by decide)).trans ?_
  exact BitVec.extractLsb'_append_eq_right

@[simp] theorem bField_cmd64 : bField (cmd64 idx b g r op) = b := by
  iterate 3 refine (BitVec.extractLsb'_append_eq_of_le (by decide)).trans ?_
  exact BitVec.extractLsb'_append_eq_right

@[simp] theorem idxField_cmd64 : idxField (cmd64 idx b g r op) = idx := by
  iterate 3 refine (BitVec.extractLsb'_append_eq_of_le (by decide)).trans ?_
  exact BitVec.extractLsb'_append_eq_left

theorem cmd64_fields : cmd64 (idxField w) (bField w) (gField w) (rField w) (opField w) = w := by
  simp only [cmd64, idxField, bField, gField, rField, opField]
  iterate 4 rw [BitVec.extractLsb'_append_extractLsb'_eq_extractLsb' (by rfl)]
  exact BitVec.extractLsb'_eq_self

theorem cmd64_of_operandField {w : Cmd} {op : Byte} (hop : opField w = op) (hz : operandField w = 0) : cmd64 0 0 0 0 op = w := by
  have hw : operandField w ++ opField w = w := BitVec.extractLsb'_append_extractLsb'
  rw [hz, hop] at hw
  exact hw

/-- The number a word is, from its fields' numbers. -/
theorem toNat_cmd64 : (cmd64 idx b g r op).toNat =
    (idx.toNat <<< 32) ||| (b.toNat <<< 24) ||| (g.toNat <<< 16) ||| (r.toNat <<< 8) ||| op.toNat := by
  simp only [cmd64, BitVec.toNat_append, Nat.shiftLeft_or_distrib, ← Nat.shiftLeft_add]

/-! Each field as a number. -/

theorem opField_eq_iff : opField w = op ↔ w.toNat % 256 = op.toNat := BitVec.toNat_inj.symm

theorem operandField_eq_zero_iff : operandField w = 0 ↔ w.toNat / 2 ^ 8 = 0 := by
  rw [← BitVec.toNat_inj, operandField, BitVec.extractLsb'_toNat, Nat.shiftRight_eq_div_pow, Nat.mod_eq_of_lt (by omega)]
  rfl

theorem rField_eq_ofNat : rField w = BitVec.ofNat 8 (w.toNat / 2 ^ 8) := by rw [← Nat.shiftRight_eq_div_pow]; rfl

theorem gField_eq_ofNat : gField w = BitVec.ofNat 8 (w.toNat / 2 ^ 16) := by rw [← Nat.shiftRight_eq_div_pow]; rfl

theorem bField_eq_ofNat : bField w = BitVec.ofNat 8 (w.toNat / 2 ^ 24) := by rw [← Nat.shiftRight_eq_div_pow]; rfl

theorem idxField_eq_ofNat : idxField w = BitVec.ofNat 32 (w.toNat / 2 ^ 32) := by rw [← Nat.shiftRight_eq_div_pow]; rfl

theorem idxField_eq_zero_iff : idxField w = 0 ↔ w.toNat / 2 ^ 32 = 0 := by
  rw [← BitVec.toNat_inj, idxField, BitVec.extractLsb'_toNat, Nat.shiftRight_eq_div_pow, Nat.mod_eq_of_lt (by omega)]
  rfl

end

/-! ## The decoder and the encoder (R72, R73) -/

/-- Settles O7: a command without operands has one word, which the decoder evaluates; of the word of any other command the fields read back
(`opField_cmd64` and its likes). -/
theorem decodeOfEncode : Obligations.DecodeOfEncode := by
  intro i
  cases i with
  | init => rfl
  | deinit => rfl
  | setPixel idx r g b => simp [encode, decode]
  | setAll r g b => simp [encode, decode]
  | send => rfl

theorem encode_setPixel_of_opField {w : Cmd} (hop : opField w = 0x03) :
    encode (.setPixel (idxField w) (rField w) (gField w) (bField w)) = w := by
  rw [encode, ← hop, cmd64_fields]

theorem encode_setAll_of_opField {w : Cmd} (hop : opField w = 0x04) (hz : idxField w = 0) :
    encode (.setAll (rField w) (gField w) (bField w)) = w := by
  rw [encode, ← hop, ← hz, cmd64_fields]

/-- Settles O8: in each branch of the decoder that gives a command, the tests passed fix the fields that the command does not carry. -/
theorem encodeOfDecode : Obligations.EncodeOfDecode := by
  intro w i h
  rw [decode] at h
  split_ifs at h with h1 hz h2 hz h3 h4 hz h5 hz <;> cases h
  · exact cmd64_of_operandField h1 hz
  · exact cmd64_of_operandField h2 hz
  · exact encode_setPixel_of_opField h3
  · exact encode_setAll_of_opField h4 hz
  · exact cmd64_of_operandField h5 hz

theorem decode_eq_ok_iff (w : Cmd) (i : Instr) : decode w = .ok i ↔ encode i = w :=
  ⟨encodeOfDecode w i, fun h => h ▸ decodeOfEncode i⟩

/-- Settles O6: the tests of the decoder are tests of the word as a number, and an operand field is the quotient, cut to its width. -/
theorem decoderFollowsTheFields : Obligations.DecoderFollowsTheFields := by
  intro w
  simp only [decode, opField_eq_iff, operandField_eq_zero_iff, idxField_eq_zero_iff]
  rw [idxField_eq_ofNat, rField_eq_ofNat, gField_eq_ofNat, bField_eq_ofNat]
  rfl

/-- Settles O11: each word is a closed term that the decoder evaluates. -/
theorem sampleWordsDecode : Obligations.SampleWordsDecode := by
  unfold Obligations.SampleWordsDecode
  decide

/-! ## The opcode table (R72) -/

theorem fixedBits (i : Instr) : Laws.FixedBits.Statement i := by
  cases i with
  | init => exact Laws.FixedBits.init
  | deinit => exact Laws.FixedBits.deinit
  | setPixel idx r g b => exact Laws.FixedBits.setPixel idx r g b
  | setAll r g b => exact Laws.FixedBits.setAll r g b
  | send => exact Laws.FixedBits.send

theorem eq_of_mem_opcodeTable_of_name_eq :
    ∀ row ∈ opcodeTable, ∀ row' ∈ opcodeTable, row'.name = row.name → row' = row := by decide

/-- A field that a mask keeps whole is the pattern's. -/
theorem extractLsb'_eq_of_and {w mask pattern : Cmd} (h : w &&& mask = pattern) {start len : Nat}
    (hmask : mask.extractLsb' start len = BitVec.allOnes len) : w.extractLsb' start len = pattern.extractLsb' start len :=
  calc
    w.extractLsb' start len = w.extractLsb' start len &&& mask.extractLsb' start len := by rw [hmask, BitVec.and_allOnes]
    _ = (w &&& mask).extractLsb' start len := BitVec.extractLsb'_and.symm
    _ = pattern.extractLsb' start len := by rw [h]

/-- A word with the fixed bits of a row is the word of a command of that row. -/
theorem TableRow.exists_encode_eq_of_admits {row : TableRow} (hrow : row ∈ opcodeTable) {w : Cmd} (h : row.admits w = true) :
    ∃ i, encode i = w ∧ i.mnemonic = row.name := by
  rw [TableRow.admits, beq_iff_eq] at h
  have hfull (hm : row.mask = BitVec.allOnes 64) : row.pattern = w := by rw [← h, hm, BitVec.and_allOnes]
  simp only [opcodeTable, List.mem_cons, List.not_mem_nil, or_false] at hrow
  rcases hrow with rfl | rfl | rfl | rfl | rfl
  · exact ⟨.init, hfull rfl, rfl⟩
  · exact ⟨.deinit, hfull rfl, rfl⟩
  · exact ⟨_, encode_setPixel_of_opField (extractLsb'_eq_of_and h (by decide)), rfl⟩
  · exact ⟨_, encode_setAll_of_opField (extractLsb'_eq_of_and h (by decide)) (extractLsb'_eq_of_and h (by decide)), rfl⟩
  · exact ⟨.send, hfull rfl, rfl⟩

/-- Settles O9: one way by the rows, the other way because a command's word has the bits of its own row (`fixedBits`), and a row is found
by its name. -/
theorem opcodeTableDecidesCommand : Obligations.OpcodeTableDecidesCommand := by
  intro w row hrow
  simp only [decode_eq_ok_iff]
  refine ⟨TableRow.exists_encode_eq_of_admits hrow, ?_⟩
  rintro ⟨i, rfl, hi⟩
  obtain ⟨row', hrow', hname, hadmits⟩ := fixedBits i
  rwa [← eq_of_mem_opcodeTable_of_name_eq row hrow row' hrow' (hname.trans hi)]

/-! ## The assembler (R76 to R78) -/

theorem AsmLine.isSome_assemble (l : AsmLine) : l.assemble.isSome = l.wellFormed := by
  unfold AsmLine.assemble
  split
  · next h => exact h.symm
  · next h => exact (Bool.eq_false_of_not_eq_true h).symm

theorem AsmLine.wellFormed_of_assemble {l : AsmLine} {w : Cmd} (h : l.assemble = some w) : l.wellFormed = true := by
  rw [← l.isSome_assemble, h]
  rfl

theorem AsmLine.wellFormed_setPixel_iff (i r g b : Nat) :
    (AsmLine.setPixel i r g b).wellFormed = true ↔ i < 4294967296 ∧ r < 256 ∧ g < 256 ∧ b < 256 := by
  simp [AsmLine.wellFormed, and_assoc]

theorem AsmLine.wellFormed_setAll_iff (r g b : Nat) :
    (AsmLine.setAll r g b).wellFormed = true ↔ r < 256 ∧ g < 256 ∧ b < 256 := by
  simp [AsmLine.wellFormed, and_assoc]

theorem AsmLine.wellFormed_word64_iff (v : Nat) : (AsmLine.word64 v).wellFormed = true ↔ v < 18446744073709551616 :=
  decide_eq_true_iff

theorem toNat_encode_setPixel (idx : Word32) (r g b : Byte) : (encode (.setPixel idx r g b)).toNat =
    (idx.toNat <<< 32) ||| (b.toNat <<< 24) ||| (g.toNat <<< 16) ||| (r.toNat <<< 8) ||| 0x03 := toNat_cmd64 ..

theorem toNat_encode_setAll (r g b : Byte) : (encode (.setAll r g b)).toNat =
    (b.toNat <<< 24) ||| (g.toNat <<< 16) ||| (r.toNat <<< 8) ||| 0x04 := by
  rw [encode, toNat_cmd64]
  simp

/-- A line that names a command and is not refused gives that command's word (R77). -/
theorem AsmLine.eq_encode_of_assemble {l : AsmLine} {i : Instr} {w : Cmd} (hi : l.instr? = some i) (hw : l.assemble = some w) :
    w = encode i := by
  have hl := AsmLine.wellFormed_of_assemble hw
  unfold AsmLine.assemble at hw
  rw [if_pos hl] at hw
  cases hw
  cases l with
  | init => cases hi; decide
  | deinit => cases hi; decide
  | send => cases hi; decide
  | word64 v => cases hi
  | setPixel i r g b =>
    cases hi
    obtain ⟨hidx, hr, hg, hb⟩ := (AsmLine.wellFormed_setPixel_iff i r g b).1 hl
    have h := toNat_encode_setPixel (BitVec.ofNat 32 i) (BitVec.ofNat 8 r) (BitVec.ofNat 8 g) (BitVec.ofNat 8 b)
    simp only [BitVec.toNat_ofNat, Nat.mod_eq_of_lt hidx, Nat.mod_eq_of_lt hr, Nat.mod_eq_of_lt hg, Nat.mod_eq_of_lt hb] at h
    exact (BitVec.toNat_eq_nat.1 h).2.symm
  | setAll r g b =>
    cases hi
    obtain ⟨hr, hg, hb⟩ := (AsmLine.wellFormed_setAll_iff r g b).1 hl
    have h := toNat_encode_setAll (BitVec.ofNat 8 r) (BitVec.ofNat 8 g) (BitVec.ofNat 8 b)
    simp only [BitVec.toNat_ofNat, Nat.mod_eq_of_lt hr, Nat.mod_eq_of_lt hg, Nat.mod_eq_of_lt hb] at h
    exact (BitVec.toNat_eq_nat.1 h).2.symm

/-- Settles O5: `AsmLine.eq_encode_of_assemble`, and the words as numbers (`toNat_cmd64`). -/
theorem assemblyTableWords : Obligations.AssemblyTableWords :=
  ⟨fun _ _ _ => AsmLine.eq_encode_of_assemble, by decide, by decide, by decide, toNat_encode_setPixel, toNat_encode_setAll, by decide,
    by decide⟩

theorem AsmLine.toNat_of_assemble_word64 {v : Nat} {w : Cmd} (h : (AsmLine.word64 v).assemble = some w) : w.toNat = v := by
  have hv := AsmLine.wellFormed_of_assemble h
  unfold AsmLine.assemble at h
  rw [if_pos hv] at h
  cases h
  exact (BitVec.toNat_ofNat v 64).trans (Nat.mod_eq_of_lt ((AsmLine.wellFormed_word64_iff v).1 hv))

/-- Settles O10: a line gives a word exactly when it is well formed (`AsmLine.isSome_assemble`), and the word is that of the command named,
which decoding gives back. -/
theorem assembledLinesDecode : Obligations.AssembledLinesDecode := by
  refine ⟨rfl, rfl, rfl, fun i r g b => ?_, fun r g b => ?_, fun v => ?_, fun l w i hw hi => ?_,
    fun _ _ => AsmLine.toNat_of_assemble_word64⟩
  · rw [AsmLine.isSome_assemble, AsmLine.wellFormed_setPixel_iff]
  · rw [AsmLine.isSome_assemble, AsmLine.wellFormed_setAll_iff]
  · rw [AsmLine.isSome_assemble, AsmLine.wellFormed_word64_iff]
  · exact (decode_eq_ok_iff w i).2 (AsmLine.eq_encode_of_assemble hi hw).symm

/-! ## Illegal words (R74) and placed words -/

/-- A reserved opcode, or a nonzero must-be-zero field, is illegal. -/
theorem exists_decode_eq_error {w : Cmd} (h : w.toNat % 256 = 0 ∨ 6 ≤ w.toNat % 256 ∨
    ((w.toNat % 256 = 1 ∨ w.toNat % 256 = 2 ∨ w.toNat % 256 = 5) ∧ w.toNat / 2 ^ 8 ≠ 0) ∨
    (w.toNat % 256 = 4 ∧ w.toNat / 2 ^ 32 ≠ 0)) : ∃ e, decode w = .error e := by
  rw [decoderFollowsTheFields w]
  rcases h with hop | hop | ⟨hop | hop | hop, hz⟩ | ⟨hop, hz⟩
  · exact ⟨.reservedOpcode, by simp [hop]⟩
  · have hne (k : Nat) (hk : k < 6) : w.toNat % 256 ≠ k := by omega
    exact ⟨.reservedOpcode, by simp [hne]⟩
  all_goals exact ⟨.nonzeroField, by simp only [hop, if_neg hz]; rfl⟩

theorem tableWord_toNat (w : Cmd) : tableWord 64 w.toNat = w := by
  rw [tableWord, Nat.mod_eq_of_lt w.isLt, BitVec.ofNat_toNat, BitVec.setWidth_eq]

theorem decodeTableWord_toNat {w : Cmd} {i : Instr} (h : decode w = .ok i) : decodeTableWord 64 w.toNat = some i := by
  rw [decodeTableWord, if_pos le_rfl, tableWord_toNat, h]

end Sys2Proof

namespace Sys2Proof.Machine

theorem runWord_of_ok {w : Cmd} {i : Instr} (h : decode w = .ok i) (s : State) : runWord w s = exec i s := by rw [runWord, h]

theorem runWord_of_error {w : Cmd} {e : Illegal} (h : decode w = .error e) (s : State) :
    runWord w s = .next (s.raise .illegalCommand) := by rw [runWord, h]

theorem State.holds_placeCmd {s : State} (h : s.cfg.legal = true) (w : Cmd) : (s.placeCmd w).holds w := ⟨h, rfl, rfl, rfl, rfl⟩

/-- What acceptance sets, the end of the command clears again (R12, R31). -/
theorem State.idle.raise_dropCmd_accept {s : State} (h : s.idle) (w : Cmd) (rest : List Cmd) :
    (s.accept w rest).dropCmd.raise .illegalCommand = { s with program := rest, result := .illegalCommand, stIll := true } := by
  obtain ⟨-, hb, -, hc, -⟩ := h
  cases s
  cases hb
  cases hc
  rfl

/-- Settles O21, in the two steps of acceptance (`step_of_idle`) and run (`step_of_holds`). -/
theorem illegalWordsRaise : Obligations.IllegalWordsRaise := by
  intro s w rest hi hp hw
  obtain ⟨e, he⟩ := exists_decode_eq_error hw
  have hrun : step (s.accept w rest) = .next ((s.accept w rest).dropCmd.raise .illegalCommand) :=
    (step_of_holds _ w (hi.accept w rest)).trans (runWord_of_error he _)
  exact ⟨2, s.accept w rest, step_of_idle s w rest hi hp, _, hrun, hi.raise_dropCmd_accept w rest⟩

/-- Settles O52: the table word of a command word is that word (`tableWord_toNat`), and a block that holds it runs it (`step_of_holds`). -/
theorem fetchWordIsRunNext : Obligations.FetchWordIsRunNext := by
  intro s w i hl hd
  refine ⟨decodeTableWord_toNat hd, ?_⟩
  rw [State.withFetchWord, tableWord_toNat, step_of_holds _ w (State.holds_placeCmd hl w), runWord_of_ok hd]
  rfl

end Sys2Proof.Machine

/-! PROOFS of the family 40_pixel_write.md: the bit-timing encoder (R100 to R103), the pixel commands (R104 to R108), and that no command
stops the block (R110). -/

namespace Sys2Proof.Machine

/-! ## The bit-timing encoder -/

theorem encodeBit_eq_pHi_iff (p : Params) (x : Bool) : encodeBit p x = p.pHi.byte ↔ x = true := by
  cases x with
  | true => exact iff_of_true rfl rfl
  | false => exact iff_of_false (p.pHi.byte_ne_lo p.pLo).symm Bool.false_ne_true

theorem encodeBit_injective (p : Params) : Function.Injective (encodeBit p) := by
  intro x y h
  rw [Bool.eq_iff_iff, ← encodeBit_eq_pHi_iff p x, ← encodeBit_eq_pHi_iff p y, h]

/-- R101: wire byte `k` of a channel value stands for its bit `7 - k`. -/
theorem getElem?_encodeByte (p : Params) (v : Byte) {k : Nat} (hk : k < 8) :
    (encodeByte p v)[k]? = some (encodeBit p (v.getLsbD (7 - k))) := by
  interval_cases k <;> rfl

theorem encodeByte_injective (p : Params) : Function.Injective (encodeByte p) := by
  intro v v' h
  refine BitVec.eq_of_getLsbD_eq fun n hn => encodeBit_injective p (Option.some.inj ?_)
  have hbyte (u : Byte) : some (encodeBit p (u.getLsbD n)) = (encodeByte p u)[7 - n]? := by
    rw [getElem?_encodeByte p u (by omega), Nat.sub_sub_self (by omega)]
  rw [hbyte v, hbyte v', h]

/-- Settles O12, by `getElem?_encodeByte`. -/
theorem encodeByteIsMsbFirst : Obligations.EncodeByteIsMsbFirst :=
  fun p v => ⟨length_encodeByte p v, fun _ hk => getElem?_encodeByte p v hk⟩

/-- Settles O13: the 24 bytes are three appended lists of eight. -/
theorem encodePixelIsGreenRedBlue : Obligations.EncodePixelIsGreenRedBlue := by
  refine fun p r g b => ⟨length_encodePixel p r g b, fun j _ => ?_⟩
  rw [encodePixel, List.append_assoc, List.getElem?_append, List.getElem?_append, length_encodeByte, length_encodeByte]
  have hsub : j - 8 < 8 ↔ j < 16 := by omega
  simp only [hsub, Nat.sub_sub, Nat.reduceAdd]

/-- Settles O14: the two patterns differ, so a wire byte tells its bit (`encodeBit_eq_pHi_iff`), eight of them their value
(`encodeByte_injective`), and three lists of equal length their colour. -/
theorem alphabetIsClosedAndInjective : Obligations.AlphabetIsClosedAndInjective := by
  refine fun p => ⟨fun r g b x => mem_encodePixel, fun v k hk => ?_, fun v v' h => encodeByte_injective p h, ?_⟩
  · rw [getElem?_encodeByte p v hk, Option.some_inj, encodeBit_eq_pHi_iff]
  · intro r g b r' g' b' h
    obtain ⟨hgr, hb⟩ := List.append_inj' h rfl
    obtain ⟨hg, hr⟩ := List.append_inj' hgr rfl
    exact ⟨encodeByte_injective p hr, encodeByte_injective p hg, encodeByte_injective p hb⟩

/-! ## The ends of the pixel commands -/

section

variable {s : State} {idx : Word32} (r g b : Byte)

theorem exec_setPixel_of_uninit (hl : s.lifecycle = .uninit) :
    exec (.setPixel idx r g b) s = .next (s.raise .preconditionViolated) :=
  (execSetPixel_eq idx r g b s).trans (if_pos (by simp [hl]))

theorem exec_setPixel_of_nLeds_le (hl : s.lifecycle = .ready) (hi : s.cfg.nLeds ≤ idx.toNat) :
    exec (.setPixel idx r g b) s = .next (s.raise .indexOutOfRange) :=
  (execSetPixel_eq idx r g b s).trans ((if_neg (not_not.2 hl)).trans (if_pos hi))

theorem exec_setPixel_of_lt (hl : s.lifecycle = .ready) (hi : idx.toNat < s.cfg.nLeds) :
    exec (.setPixel idx r g b) s = .next (s.painted (s.fb.writeBytes (slotBase idx.toNat) (encodePixel s.cfg r g b))) :=
  (execSetPixel_eq idx r g b s).trans ((if_neg (not_not.2 hl)).trans (if_neg (not_le.2 hi)))

/-- After another pixel command, a `SET_PIXEL` paints over the memory that command left. -/
theorem exec_setPixel_painted (hl : s.lifecycle = .ready) (hi : idx.toNat < s.cfg.nLeds) (m : Memory) :
    exec (.setPixel idx r g b) (s.painted m) = .next (s.painted (m.writeBytes (slotBase idx.toNat) (encodePixel s.cfg r g b))) :=
  exec_setPixel_of_lt (s := s.painted m) r g b hl hi

theorem exec_setAll_of_uninit (hl : s.lifecycle = .uninit) : exec (.setAll r g b) s = .next (s.raise .preconditionViolated) :=
  (execSetAll_eq r g b s).trans (if_pos (by simp [hl]))

theorem exec_setAll_of_ready (hl : s.lifecycle = .ready) :
    exec (.setAll r g b) s = .next (s.painted (fillSlots s.fb (encodePixel s.cfg r g b) s.cfg.nLeds)) :=
  (execSetAll_eq r g b s).trans (if_neg (not_not.2 hl))

end

/-- The whole state a pixel command that completes leaves: nothing but `FB`, `RESULT` and `BUSY` has changed. -/
theorem State.painted_eq (s : State) (m : Memory) : s.painted m = { s with fb := m, result := .ok, busy := false } := rfl

/-! ## What the pixel commands leave in the frame buffer (R104 to R107) -/

/-- What a colour written to its slot leaves: the colour's encoding in the slot, every other byte as before (R105). -/
theorem read_writeBytes_encodePixel {m : Memory} (hm : m.wf = true) (p : Params) (r g b : Byte) (base a : Nat) :
    Memory.read (m.writeBytes base (encodePixel p r g b)) a =
      if base ≤ a ∧ a < base + 24 then (encodePixel p r g b).getD (a - base) 0 else m.read a := by
  rw [Memory.read_writeBytes m base (encodePixel p r g b) a hm, length_encodePixel]

/-- Of two byte sequences of one length written to one place the second one stays (R106). -/
theorem Memory.writeBytes_writeBytes {m : Memory} (hm : m.wf = true) (base : Nat) {ws ws' : List Byte} (h : ws.length = ws'.length) :
    (m.writeBytes base ws).writeBytes base ws' = m.writeBytes base ws' := by
  have hw : (m.writeBytes base ws).wf = true := Memory.wf_writeBytes m base ws hm
  refine Memory.ext_of_read (Memory.wf_writeBytes _ _ _ hw) (Memory.wf_writeBytes _ _ _ hm) fun a => ?_
  rw [Memory.read_writeBytes _ base ws' a hw, Memory.read_writeBytes m base ws a hm, Memory.read_writeBytes m base ws' a hm, h]
  split_ifs <;> rfl

/-- Settles O16, by the three ends of the command; what the last one leaves is `read_writeBytes_encodePixel`. -/
theorem setPixelMeaning : Obligations.SetPixelMeaning := by
  refine fun s idx r g b => ⟨exec_setPixel_of_uninit r g b, exec_setPixel_of_nLeds_le r g b, fun hl hi hm => ?_⟩
  refine ⟨s.fb.writeBytes (slotBase idx.toNat) (encodePixel s.cfg r g b), ?_, Memory.wf_writeBytes _ _ _ hm, fun a => ?_⟩
  · rw [exec_setPixel_of_lt r g b hl hi, State.painted_eq]
  · exact read_writeBytes_encodePixel hm s.cfg r g b (slotBase idx.toNat) a

/-- Settles O17: a slot's bytes are those written to it (`read_writeBytes_encodePixel`), and a second write to it leaves nothing of the first
(`Memory.writeBytes_writeBytes`). -/
theorem setPixelOverwrites : Obligations.SetPixelOverwrites := by
  intro s t idx r g b hs ht hcfg hls hlt hi
  refine ⟨_, _, exec_setPixel_of_lt r g b hls hi, exec_setPixel_of_lt r g b hlt (hcfg ▸ hi), fun j hj => ?_, fun r' g' b' => ?_⟩
  · have hslot : slotBase idx.toNat ≤ slotBase idx.toNat + j ∧ slotBase idx.toNat + j < slotBase idx.toNat + 24 := by omega
    simp only [State.fbByte, State.painted_fb]
    rw [read_writeBytes_encodePixel hs, read_writeBytes_encodePixel ht, if_pos hslot, if_pos hslot, hcfg]
  · have hover := Memory.writeBytes_writeBytes hs (slotBase idx.toNat) (ws := encodePixel s.cfg r' g' b')
      (ws' := encodePixel s.cfg r g b) rfl
    refine ⟨_, _, exec_setPixel_of_lt r' g' b' hls hi, exec_setPixel_painted r g b hls hi _, ?_⟩
    rw [State.painted_fb, State.painted_fb, hover]

/-- Settles O18, by the two ends of the command; what it leaves when it completes is `read_fillSlots`. -/
theorem setAllMeaning : Obligations.SetAllMeaning := by
  refine fun s r g b => ⟨exec_setAll_of_uninit r g b, fun hl hm => ?_⟩
  have hread (a : Nat) := read_fillSlots s.fb (encodePixel s.cfg r g b) (length_encodePixel ..) s.cfg.nLeds a hm
  refine ⟨fillSlots s.fb (encodePixel s.cfg r g b) s.cfg.nLeds, exec_setAll_of_ready r g b hl, wf_fillSlots _ _ _ hm,
    fun i hi j hj => ?_, fun a ha => ?_⟩
  · rw [hread, slotBase, if_pos (by omega), Nat.mul_add_mod, Nat.mod_eq_of_lt hj]
  · exact (hread a).trans (if_neg (not_lt.2 ha))

/-! ## `SET_ALL` and every `SET_PIXEL` (R108) -/

theorem fillSlots_succ (m : Memory) (w : List Byte) (n : Nat) :
    fillSlots m w (n + 1) = (fillSlots m w n).writeBytes (slotBase n) w := rfl

theorem execAll_singleton (i : Instr) (s : State) : execAll [i] s = exec i s := by
  rw [execAll]
  cases exec i s <;> rfl

theorem execAll_append {is js : List Instr} {s t : State} (h : execAll is s = .next t) : execAll (is ++ js) s = execAll js t := by
  induction is generalizing s with
  | nil => cases h; rfl
  | cons i is ih =>
    rw [execAll] at h
    rw [List.cons_append, execAll]
    cases hx : exec i s with
    | next u => rw [hx] at h; exact ih h
    | fault e => rw [hx] at h; cases h
    | refused e => rw [hx] at h; cases h

section

variable {s u : State} {n : Nat} {r g b : Byte}

/-- One index more is one `SET_PIXEL` more, run last. -/
theorem execAll_pixelCommands_succ (h : execAll (pixelCommands n r g b) s = .next u) :
    execAll (pixelCommands (n + 1) r g b) s = exec (.setPixel (BitVec.ofNat 32 n) r g b) u := by
  rw [← execAll_singleton, ← execAll_append h, pixelCommands, pixelCommands, List.range_succ, List.map_append]
  rfl

/-- An LED number of a legal strip fits the index field (R8). -/
theorem toNat_ofNat_of_lt_nLeds {p : Params} (hlegal : p.legal = true) (hn : n < p.nLeds) : (BitVec.ofNat 32 n).toNat = n := by
  obtain ⟨-, hfits⟩ := (Params_legal_iff p).1 hlegal
  exact (BitVec.toNat_ofNat n 32).trans (Nat.mod_eq_of_lt (by omega))

/-- From `READY`, `SET_PIXEL` for the indices `0 .. n` fills the slots `0 .. n`. -/
theorem execAll_pixelCommands_of_ready (hlegal : s.cfg.legal = true) (hl : s.lifecycle = .ready) (hn : n < s.cfg.nLeds) :
    execAll (pixelCommands (n + 1) r g b) s = .next (s.painted (fillSlots s.fb (encodePixel s.cfg r g b) (n + 1))) := by
  have hidx {k : Nat} (hk : k < s.cfg.nLeds) : (BitVec.ofNat 32 k).toNat = k := toNat_ofNat_of_lt_nLeds hlegal hk
  induction n with
  | zero => rw [execAll_pixelCommands_succ rfl, exec_setPixel_of_lt r g b hl (by rwa [hidx hn]), hidx hn, fillSlots_succ, fillSlots]
  | succ n ih =>
    rw [execAll_pixelCommands_succ (ih (by omega)), exec_setPixel_painted r g b hl (by rwa [hidx hn]), hidx hn, ← fillSlots_succ]

/-- In `UNINIT`, a sequence of `SET_PIXEL` leaves `STATE` and `FB`. -/
theorem execAll_pixelCommands_of_uninit (hl : s.lifecycle = .uninit) (n : Nat) :
    ∃ u, execAll (pixelCommands n r g b) s = .next u ∧ u.lifecycle = .uninit ∧ u.fb = s.fb := by
  induction n with
  | zero => exact ⟨s, rfl, hl, rfl⟩
  | succ n ih =>
    obtain ⟨u, hu, hul, hufb⟩ := ih
    exact ⟨_, (execAll_pixelCommands_succ hu).trans (exec_setPixel_of_uninit r g b hul), hul, hufb⟩

end

/-- Settles O19: `SET_ALL` fills the slots that the sequence fills one by one (`execAll_pixelCommands_of_ready`), and in `UNINIT` each command
finds the lifecycle and the buffer as the one before it did (`execAll_pixelCommands_of_uninit`). -/
theorem setAllIsEverySetPixel : Obligations.SetAllIsEverySetPixel := by
  refine fun s r g b hlegal => ⟨fun hl => ?_, fun hl => ⟨⟨_, exec_setAll_of_uninit r g b hl, rfl, rfl⟩, fun k _ => ?_⟩⟩
  · obtain ⟨hpos, -⟩ := (Params_legal_iff s.cfg).1 hlegal
    obtain ⟨n, hn⟩ := Nat.exists_eq_add_of_le' hpos
    have hseq := execAll_pixelCommands_of_ready (r := r) (g := g) (b := b) hlegal hl (n := n) (by omega)
    rw [← hn] at hseq
    exact ⟨_, exec_setAll_of_ready r g b hl, hseq, rfl⟩
  · obtain ⟨u, hu, hul, hufb⟩ := execAll_pixelCommands_of_uninit (r := r) (g := g) (b := b) hl k
    exact ⟨u, _, hu, exec_setPixel_of_uninit r g b hul, State.raise_result _ _, (State.raise_fb _ _).trans hufb⟩

/-! ## No command stops the block (R110) -/

/-- Settles O45: each test of a meaning chooses between two next states. The only fault a meaning names, a store outside `FB`, is in no
branch of the pixel commands (`execSetPixel_eq`, `execSetAll_eq`, from `State.storeSlot_of_lt`). -/
theorem execNeverStops : Obligations.ExecNeverStops := by
  intro i s
  cases i with
  | init => exact ⟨_, (apply_ite Host.Outcome.next _ _ _).symm⟩
  | deinit => exact ⟨_, (apply_ite Host.Outcome.next _ _ _).symm⟩
  | setPixel idx r g b =>
    simp only [exec, execSetPixel_eq]
    split_ifs <;> exact ⟨_, rfl⟩
  | setAll r g b => exact ⟨_, (execSetAll_eq r g b s).trans (apply_ite Host.Outcome.next _ _ _).symm⟩
  | send => exact ⟨_, (apply_ite Host.Outcome.next _ _ _).symm⟩

end Sys2Proof.Machine

/-! PROOFS of the family 41_bus_lifecycle.md: the meanings of `INIT`, `DEINIT` and `SEND` (R131, R134, R137) and their frame (R135), that
each completes whatever the platform draws (R136, R138), the endless wait for the bus (R140, R196), and what a transfer puts on the wire
(R139). -/

namespace Sys2Proof

/-! ## Draws -/

theorem Draw.answer_tick (d : Draw) (r : Machine.Request) : d.tick.answer r = d.answer r := by cases r <;> rfl

theorem Draw.answers_acquire_of_not_granted {d : Draw} (h : d.granted = false) : d.answers .acquire = false := by
  simp [Draw.answers, h]

end Sys2Proof

namespace Sys2Proof.Machine

/-- Settles O35: a leading part is what `take` of its length leaves. -/
theorem failedTransferSendsAnyLeadingPart : Obligations.FailedTransferSendsAnyLeadingPart := by
  refine fun bytes len timeout => ⟨fun _ => rfl, fun cut => List.take_prefix cut bytes, fun part h => ⟨part.length, ?_⟩⟩
  exact (List.prefix_iff_eq_take.1 h).symm

/-! ## What each bus command begins with, passes through, and leaves -/

/-- The one request of `SEND`: the whole `FB` (R137). -/
def State.sendRequest (s : State) : Request := .transmit s.frame s.cfg.fbLen s.cfg.timeout

theorem State.takeDraw_sendRequest (s : State) : s.takeDraw.sendRequest = s.sendRequest := rfl

section

variable {s : State}

theorem exec_init_of_ready (hl : s.lifecycle = .ready) : exec .init s = .next (s.raise .preconditionViolated) :=
  if_pos (by simp [hl])

theorem exec_init_of_uninit (hl : s.lifecycle = .uninit) : exec .init s = .next (s.request .acquire afterAcquire) :=
  if_neg (not_not.2 hl)

theorem exec_deinit_of_uninit (hl : s.lifecycle = .uninit) : exec .deinit s = .next (s.raise .preconditionViolated) :=
  if_pos (by simp [hl])

theorem exec_deinit_of_ready (hl : s.lifecycle = .ready) : exec .deinit s = .next (s.request .release afterRelease) :=
  if_neg (not_not.2 hl)

theorem exec_send_of_uninit (hl : s.lifecycle = .uninit) : exec .send s = .next (s.raise .preconditionViolated) :=
  if_pos (by simp [hl])

theorem exec_send_of_ready (hl : s.lifecycle = .ready) : exec .send s = .next (s.request s.sendRequest afterTransmit) :=
  if_neg (not_not.2 hl)

end

/-- `INIT` once the bus is granted (R131). -/
def State.initHeld (s : State) : State := (s.record .acquire .done).setBusOwned true

/-- `INIT` once the pin is a push-pull output (R131). -/
def State.initDriven (s : State) : State :=
  (s.initHeld.record (.pinCfg .ppOut (some s.cfg.pinPull) (some .max)) .done).setPinMode .ppOut

/-- `DEINIT` once the bus is given back (R134). -/
def State.deinitReleased (s : State) : State := (s.record .release .done).setBusOwned false

/-- `DEINIT` once the line is low (R134). -/
def State.deinitLow (s : State) : State := s.deinitReleased.record (.pinWrite .low) .done

/-- What an `INIT` that completes does to the block (R131). -/
def State.initEffect (s : State) : State :=
  { s with
    busOwned := true, pinMode := .ppOut, lifecycle := .ready, result := .ok,
    trace := s.trace ++ [⟨.acquire, .done⟩, ⟨.pinCfg .ppOut (some s.cfg.pinPull) (some .max), .done⟩, ⟨.pinWrite .low, .done⟩] }

/-- What a `DEINIT` that completes does to the block (R134). -/
def State.deinitEffect (s : State) : State :=
  { s with
    busOwned := false, pinMode := .inert, lifecycle := .uninit, result := .ok,
    trace := s.trace ++ [⟨.release, .done⟩, ⟨.pinWrite .low, .done⟩, ⟨.pinCfg .inert none none, .done⟩] }

/-- What a `SEND` that is answered `a` does to the block (R137). -/
def State.sendEffect (s : State) (a : Answer) : State :=
  { s with
    result := if a = .ok then .ok else .transferFailed, stXfer := if a = .ok then s.stXfer else true,
    trace := s.trace ++ [⟨s.sendRequest, a⟩] }

/-- No command is in progress any more (R12, R35). -/
def State.ended (s : State) : State := { s with busy := false, pending := none }

theorem afterInitLow_initDriven (s : State) :
    afterInitLow (s.initDriven.record (.pinWrite .low) .done) .done = s.initEffect.ended := by
  simp [afterInitLow, State.complete, State.setLifecycle, State.record, State.initDriven, State.setPinMode, State.initHeld,
    State.setBusOwned, State.initEffect, State.ended]

theorem afterInert_deinitLow (s : State) :
    afterInert (s.deinitLow.record (.pinCfg .inert none none) .done) .done = s.deinitEffect.ended := by
  simp [afterInert, State.complete, State.setLifecycle, State.setPinMode, State.record, State.deinitLow, State.deinitReleased,
    State.setBusOwned, State.deinitEffect, State.ended]

theorem afterTransmit_record (s : State) (a : Answer) : afterTransmit (s.record s.sendRequest a) a = (s.sendEffect a).ended := by
  cases a <;> rfl

/-! ## Where the platform answers at once -/

/-- A request that is answered at once, by the platform's draw `k`, after the draws before it are used up. -/
theorem State.request_dropDraws (s : State) (k : Nat) {r : Request} (next : State → Answer → State) (hw : (s.draw k).wait = 0)
    (hd : (s.draw k).comes r) :
    (s.dropDraws k).request r next = next ((s.record r ((s.draw k).answer r)).dropDraws (k + 1)) ((s.draw k).answer r) := by
  have hk : (s.dropDraws k).draw 0 = s.draw k := s.draw_dropDraws k 0
  have hdrop : (s.dropDraws k).takeDraw = s.dropDraws (k + 1) := by
    simp [State.takeDraw, State.dropDraws, Nat.add_assoc]
  rw [State.request_now _ r next (hk ▸ hd.answers hw), hk, hdrop]
  rfl

section

variable {s : State}

theorem exec_init_of_prompt (hl : s.lifecycle = .uninit) (hp : s.prompt 3) (hg : (s.draw 0).granted = true) :
    exec .init s = .next (s.dropDraws 3).initEffect.ended := by
  rw [exec_init_of_uninit hl]
  congr 1
  calc s.request .acquire afterAcquire
      = afterAcquire ((s.record .acquire .done).dropDraws 1) .done :=
        s.request_dropDraws 0 afterAcquire (hp 0 (by decide)) fun _ => hg
    _ = afterInitConfig ((s.initHeld.record (.pinCfg .ppOut (some s.cfg.pinPull) (some .max)) .done).dropDraws 2) .done :=
        s.initHeld.request_dropDraws 1 afterInitConfig (hp 1 (by decide)) nofun
    _ = afterInitLow ((s.initDriven.record (.pinWrite .low) .done).dropDraws 3) .done :=
        s.initDriven.request_dropDraws 2 afterInitLow (hp 2 (by decide)) nofun
    _ = (s.dropDraws 3).initEffect.ended := afterInitLow_initDriven (s.dropDraws 3)

theorem exec_deinit_of_prompt (hl : s.lifecycle = .ready) (hp : s.prompt 3) :
    exec .deinit s = .next (s.dropDraws 3).deinitEffect.ended := by
  rw [exec_deinit_of_ready hl]
  congr 1
  calc s.request .release afterRelease
      = afterRelease ((s.record .release .done).dropDraws 1) .done :=
        s.request_dropDraws 0 afterRelease (hp 0 (by decide)) nofun
    _ = afterDeinitLow (s.deinitLow.dropDraws 2) .done :=
        s.deinitReleased.request_dropDraws 1 afterDeinitLow (hp 1 (by decide)) nofun
    _ = afterInert ((s.deinitLow.record (.pinCfg .inert none none) .done).dropDraws 3) .done :=
        s.deinitLow.request_dropDraws 2 afterInert (hp 2 (by decide)) nofun
    _ = (s.dropDraws 3).deinitEffect.ended := afterInert_deinitLow (s.dropDraws 3)

theorem exec_send_of_prompt (hl : s.lifecycle = .ready) (hp : s.prompt 1) :
    exec .send s = .next ((s.dropDraws 1).sendEffect (if (s.draw 0).ok then .ok else .fail)).ended := by
  rw [exec_send_of_ready hl]
  congr 1
  calc s.request s.sendRequest afterTransmit
      = afterTransmit ((s.record s.sendRequest ((s.draw 0).answer s.sendRequest)).dropDraws 1) ((s.draw 0).answer s.sendRequest) :=
        s.request_dropDraws 0 afterTransmit (hp 0 one_pos) nofun
    _ = ((s.dropDraws 1).sendEffect ((s.draw 0).answer s.sendRequest)).ended := afterTransmit_record (s.dropDraws 1) _

end

/-- Settles O25: `INIT` with prompt answers runs through its three requests (`exec_init_of_prompt`); a bus that is not there at once leaves
the first of them pending (`State.request_later`). -/
theorem initMeaning : Obligations.InitMeaning := by
  refine fun s => ⟨exec_init_of_ready, exec_init_of_prompt, fun hl hlate => ?_⟩
  have hno : ¬(s.draw 0).answers .acquire = true := fun h => by
    obtain ⟨hw, hg⟩ := (Draw_answers_iff _ _).1 h
    simp [hw, hg rfl] at hlate
  rw [exec_init_of_uninit hl, s.request_later _ _ (Bool.eq_false_iff.2 hno)]
  rfl

/-- Settles O26: `DEINIT` with prompt answers runs through its three requests (`exec_deinit_of_prompt`). -/
theorem deinitMeaning : Obligations.DeinitMeaning :=
  fun _ => ⟨exec_deinit_of_uninit, exec_deinit_of_prompt⟩

/-- Settles O27: `SEND` with a prompt answer ends by that answer (`exec_send_of_prompt`). -/
theorem sendMeaning : Obligations.SendMeaning := by
  refine fun s => ⟨exec_send_of_uninit, fun hl hp hok => ?_, fun hl hp hok => ?_⟩
  all_goals
    rw [exec_send_of_prompt hl hp, hok]
    rfl

/-! ## The frame of the bus commands (R135) -/

/-- The block with everything that `INIT` and `DEINIT` may write, and the platform's part, blanked: what is left, they leave alone. -/
def State.apartFromBus (s : State) : State :=
  { s with
    lifecycle := .uninit, busy := false, result := .ok, busOwned := false, pinMode := .inert, trace := [], pending := none, script := [],
    draws := 0 }

theorem State.request_apartFromBus {s : State} {r : Request} {next : State → Answer → State}
    (h : ∀ u a, (next u a).apartFromBus = u.apartFromBus) : (s.request r next).apartFromBus = s.apartFromBus :=
  State.request_elim (P := fun u => u.apartFromBus = s.apartFromBus) rfl (h _ _)

theorem afterInitConfig_apartFromBus (s : State) (a : Answer) : (afterInitConfig s a).apartFromBus = s.apartFromBus :=
  State.request_apartFromBus (s := s.setPinMode .ppOut) fun _ _ => rfl

theorem afterAcquire_apartFromBus (s : State) (a : Answer) : (afterAcquire s a).apartFromBus = s.apartFromBus :=
  State.request_apartFromBus (s := s.setBusOwned true) afterInitConfig_apartFromBus

theorem afterDeinitLow_apartFromBus (s : State) (a : Answer) : (afterDeinitLow s a).apartFromBus = s.apartFromBus :=
  State.request_apartFromBus fun _ _ => rfl

theorem afterRelease_apartFromBus (s : State) (a : Answer) : (afterRelease s a).apartFromBus = s.apartFromBus :=
  State.request_apartFromBus (s := s.setBusOwned false) afterDeinitLow_apartFromBus

/-- What a bus command leaves alone, whatever the platform draws. -/
structure BusFrame (i : Instr) (s t : State) : Prop where
  fb : t.fb = s.fb
  cfg : t.cfg = s.cfg
  program : t.program = s.program
  rst : t.rst = s.rst
  stIdx : t.stIdx = s.stIdx
  stIll : t.stIll = s.stIll
  stXfer : i ≠ .send → t.stXfer = s.stXfer
  send : i = .send → t.lifecycle = s.lifecycle ∧ t.busOwned = s.busOwned ∧ t.pinMode = s.pinMode
  stPre : s.lifecycle = needs i → t.stPre = s.stPre

namespace BusFrame

variable {i : Instr} {s t : State}

theorem raise (h : s.lifecycle ≠ needs i) : BusFrame i s (s.raise .preconditionViolated) :=
  ⟨rfl, rfl, rfl, rfl, rfl, rfl, fun _ => rfl, fun _ => ⟨rfl, rfl, rfl⟩, fun e => absurd e h⟩

theorem of_apartFromBus (hi : i ≠ .send) (h : t.apartFromBus = s.apartFromBus) : BusFrame i s t where
  fb := (congrArg State.fb h :)
  cfg := (congrArg State.cfg h :)
  program := (congrArg State.program h :)
  rst := (congrArg State.rst h :)
  stIdx := (congrArg State.stIdx h :)
  stIll := (congrArg State.stIll h :)
  stXfer _ := (congrArg State.stXfer h :)
  send e := absurd e hi
  stPre _ := (congrArg State.stPre h :)

end BusFrame

section

variable {s t : State}

theorem busFrame_of_exec_init (h : exec .init s = .next t) : BusFrame .init s t := by
  cases hl : s.lifecycle with
  | uninit =>
    cases (exec_init_of_uninit hl).symm.trans h
    exact .of_apartFromBus nofun (State.request_apartFromBus afterAcquire_apartFromBus)
  | ready =>
    cases (exec_init_of_ready hl).symm.trans h
    exact .raise (by simp [hl, needs])

theorem busFrame_of_exec_deinit (h : exec .deinit s = .next t) : BusFrame .deinit s t := by
  cases hl : s.lifecycle with
  | uninit =>
    cases (exec_deinit_of_uninit hl).symm.trans h
    exact .raise (by simp [hl, needs])
  | ready =>
    cases (exec_deinit_of_ready hl).symm.trans h
    exact .of_apartFromBus nofun (State.request_apartFromBus afterRelease_apartFromBus)

theorem busFrame_of_exec_send (h : exec .send s = .next t) : BusFrame .send s t := by
  cases hl : s.lifecycle with
  | uninit =>
    cases (exec_send_of_uninit hl).symm.trans h
    exact .raise (by simp [hl, needs])
  | ready =>
    cases (exec_send_of_ready hl).symm.trans h
    refine State.request_elim ?waits ?ends
    case waits => exact ⟨rfl, rfl, rfl, rfl, rfl, rfl, fun _ => rfl, fun _ => ⟨rfl, rfl, rfl⟩, fun _ => rfl⟩
    case ends =>
      rw [← s.takeDraw_sendRequest, afterTransmit_record]
      exact ⟨rfl, rfl, rfl, rfl, rfl, rfl, nofun, fun _ => ⟨rfl, rfl, rfl⟩, fun _ => rfl⟩

end

/-- Settles O28: each of the three commands keeps its frame (`BusFrame`), and so does the wait keep `FB` (`State.await_fb`). -/
theorem busCommandsKeepFrameBuffer : Obligations.BusCommandsKeepFrameBuffer := by
  refine ⟨fun s t i hi h => ?_, fun s t h hr hp a => ?_⟩
  · have hframe : BusFrame i s t := by
      obtain rfl | rfl | rfl := hi
      · exact busFrame_of_exec_init h
      · exact busFrame_of_exec_deinit h
      · exact busFrame_of_exec_send h
    exact ⟨fun a => congrArg (Memory.read · a) hframe.fb, hframe.cfg, hframe.program, hframe.rst, hframe.stIdx, hframe.stIll,
      hframe.stXfer, hframe.send, hframe.stPre⟩
  · obtain ⟨-, ⟨hr', -⟩ | ⟨-, -, -, o, -, rfl⟩ | ⟨⟨-, -, hp', -, -⟩, -⟩ | ⟨w, ⟨-, -, hp', -, -⟩, -⟩⟩ := step_cases h
    · simp [hr] at hr'
    · exact congrArg (Memory.read · a) (s.await_fb o)
    · simp [State.pendingKind, hp'] at hp
    · simp [State.pendingKind, hp'] at hp

/-! ## Whatever the platform draws

A command is a chain of requests, each answered at once or after a wait. `State.Leads` is carried backwards along it, as `State.Ends` is,
but says which state the command ends in. -/

/-- The state with other draws of the platform to come (log 5). -/
def State.redraw (s : State) (sc : List Draw) (k : Nat) : State := { s with script := sc, draws := k }

/-- After some number of steps the state is `v`, but for the platform's draws to come. -/
def State.Leads (v s : State) : Prop := ∃ n sc k, Reaches n s (v.redraw sc k)

theorem State.Leads.of_step {v s t : State} (hs : step s = .next t) (h : v.Leads t) : v.Leads s := by
  obtain ⟨n, sc, k, hr⟩ := h
  exact ⟨n + 1, sc, k, t, hs, hr⟩

namespace State.InProgress

variable {p : List Cmd} {v s : State}

/-- A command whose outstanding request is answered some day leads where it leads after that answer: each step of waiting shortens the
wait. -/
theorem leads_of_waiting {s : State} {o : Outstanding} (h : s.InProgress p (some o)) (hd : o.draw.comes o.req)
    (go : ∀ sc k, v.Leads (resume ((s.record o.req (o.draw.answer o.req)).redraw sc k) o.req (o.draw.answer o.req))) : v.Leads s := by
  refine .of_step (step_of_waiting s o h.legal h.busy h.pending h.cmd h.rst) ?_
  rcases s.await_cases o with ⟨hw, e⟩ | ⟨-, e⟩ <;> rw [e]
  · have hd' : o.draw.tick.comes o.req := hd
    have shorter : o.draw.tick.wait < o.draw.wait := Draw.wait_tick_lt fun h0 => by simp [hd'.answers h0] at hw
    refine leads_of_waiting (h.setPending ⟨o.req, o.draw.tick⟩).advance hd' fun sc k => ?_
    rw [Draw.answer_tick]
    exact go sc k
  · exact go s.script s.draws
termination_by o.draw.wait

/-- A command that sends a request leads where it leads after the answer, if that comes some day: `next` runs then, after a wait as well
(`resume`). -/
theorem leads_request (h : s.InProgress p none) {sc : List Draw} {k : Nat} {r : Request} {next : State → Answer → State}
    (hd : ((s.redraw sc k).draw 0).comes r) (hresume : ∀ u a, u.lifecycle = s.lifecycle → resume u r a = next u a)
    (go : ∀ sc' k', v.Leads (next ((s.record r (((s.redraw sc k).draw 0).answer r)).redraw sc' k') (((s.redraw sc k).draw 0).answer r))) :
    v.Leads ((s.redraw sc k).request r next) := by
  refine State.request_elim ?waits (go _ _)
  case waits =>
    refine leads_of_waiting (p := p) ⟨h.legal, h.busy, rfl, h.cmd, h.rst, h.program⟩ hd fun sc' k' => ?_
    change v.Leads (resume ((s.record r _).redraw sc' k') r _)
    rw [hresume]
    · exact go sc' k'
    · rfl

theorem leads_initEffect (h : s.InProgress p none) (hl : s.lifecycle = .uninit) (hg : (s.draw 0).granted = true) :
    s.initEffect.ended.Leads (s.request .acquire afterAcquire) := by
  have hHeld : s.initHeld.InProgress p none := (h.record _ _).setBusOwned _
  have hDriven : s.initDriven.InProgress p none := (hHeld.record _ _).setPinMode _
  refine h.leads_request (sc := s.script) (k := s.draws) (fun _ => hg) (fun _ _ _ => rfl) fun sc k => ?_
  refine hHeld.leads_request nofun (fun _ _ _ => rfl) fun sc k => ?_
  refine hDriven.leads_request nofun (fun u a hu => if_pos (hu.trans hl)) fun sc k => ?_
  exact ⟨0, sc, k, afterInitLow_initDriven (s.redraw sc k)⟩

theorem leads_deinitEffect (h : s.InProgress p none) (hl : s.lifecycle = .ready) :
    s.deinitEffect.ended.Leads (s.request .release afterRelease) := by
  have hReleased : s.deinitReleased.InProgress p none := (h.record _ _).setBusOwned _
  have hLow : s.deinitLow.InProgress p none := hReleased.record _ _
  refine h.leads_request (sc := s.script) (k := s.draws) nofun (fun _ _ _ => rfl) fun sc k => ?_
  refine hReleased.leads_request nofun (fun u a hu => if_neg (by simp [hu.trans hl])) fun sc k => ?_
  refine hLow.leads_request nofun (fun _ _ _ => rfl) fun sc k => ?_
  exact ⟨0, sc, k, afterInert_deinitLow (s.redraw sc k)⟩

theorem leads_sendEffect (h : s.InProgress p none) :
    (s.sendEffect ((s.draw 0).answer s.sendRequest)).ended.Leads (s.request s.sendRequest afterTransmit) := by
  refine h.leads_request (sc := s.script) (k := s.draws) nofun (fun _ _ _ => rfl) fun sc k => ?_
  exact ⟨0, sc, k, afterTransmit_record (s.redraw sc k) _⟩

end State.InProgress

/-! From the idle block that is offered the command to its end. -/

namespace State.idle

variable {s : State} {w : Cmd} {rest : List Cmd} {i : Instr}

theorem inProgress_dropCmd_accept (h : s.idle) (w : Cmd) (rest : List Cmd) : (s.accept w rest).dropCmd.InProgress rest none :=
  (h.accept w rest).inProgress_dropCmd

/-- The step after acceptance is the meaning of the accepted command. -/
theorem step_accept (h : s.idle) (hd : decode w = .ok i) : step (s.accept w rest) = exec i (s.accept w rest).dropCmd :=
  (step_of_holds _ w (h.accept w rest)).trans (runWord_of_ok hd _)

/-- What acceptance sets, the end of a command that completes clears again (R12, R31). -/
theorem ended_dropCmd_accept (h : s.idle) (w : Cmd) (rest : List Cmd) : (s.accept w rest).dropCmd.ended = { s with program := rest } := by
  obtain ⟨-, hb, hp, hc, -⟩ := h
  simp [State.ended, State.dropCmd, State.accept, hb, hp, hc]

theorem preconditionViolated_dropCmd_accept (h : s.idle) (w : Cmd) (rest : List Cmd) :
    (s.accept w rest).dropCmd.raise .preconditionViolated =
      { s with program := rest, result := .preconditionViolated, stPre := true } := by
  obtain ⟨-, hb, -, hc, -⟩ := h
  simp [State.raise, State.markSticky, State.dropCmd, State.accept, hb, hc]

/-- A command that is offered in the wrong lifecycle state raises, and sends nothing (R163). -/
theorem reaches_preconditionViolated (h : s.idle) (hprog : s.program = w :: rest) (hd : decode w = .ok i)
    (hx : exec i (s.accept w rest).dropCmd = .next ((s.accept w rest).dropCmd.raise .preconditionViolated)) :
    Reaches 2 s { s with program := rest, result := .preconditionViolated, stPre := true } :=
  ⟨_, step_of_idle s w rest h hprog, _, (h.step_accept hd).trans hx, h.preconditionViolated_dropCmd_accept w rest⟩

/-- A command that is offered leads where its meaning leads. -/
theorem leads (h : s.idle) (hprog : s.program = w :: rest) (hd : decode w = .ok i) {t v : State}
    (hx : exec i (s.accept w rest).dropCmd = .next t) (ht : v.Leads t) : v.Leads s :=
  .of_step (step_of_idle s w rest h hprog) (.of_step ((h.step_accept hd).trans hx) ht)

/-- A block that is offered nothing stays as it is (R175). -/
theorem step_eq_self (h : s.idle) (hprog : s.program = []) : step s = .next s := by
  obtain ⟨hl, hb, hp, hc, hr⟩ := h
  simp [step, hl, blockStep, hr, hb, hp, hc, idleStep, hprog]

end State.idle

/-- Settles O29: `DEINIT` leads to its effect through its three requests (`State.InProgress.leads_deinitEffect`), and the idle block that
is left stays as it is (`State.idle.step_eq_self`). -/
theorem deinitAlwaysCompletes : Obligations.DeinitAlwaysCompletes := by
  intro s rest hi hprog
  have hd : decode 0x0000000000000002 = .ok .deinit := by decide
  refine ⟨fun hl => hi.reaches_preconditionViolated hprog hd (exec_deinit_of_uninit hl), fun hl => ?_⟩
  have hleads : ({ s with program := rest } : State).deinitEffect.Leads s := by
    rw [← hi.ended_dropCmd_accept 0x0000000000000002 rest]
    exact hi.leads hprog hd (exec_deinit_of_ready hl) ((hi.inProgress_dropCmd_accept _ rest).leads_deinitEffect hl)
  obtain ⟨n, sc, k, hr⟩ := hleads
  exact ⟨n, _, sc, k, hr, hi, fun hrest => State.idle.step_eq_self hi hrest, rfl⟩

/-- Settles O30: `SEND` leads to its effect through its one request, whatever the answer (`State.InProgress.leads_sendEffect`). -/
theorem sendTransmitsExactlyOnce : Obligations.SendTransmitsExactlyOnce := by
  intro s rest hi hprog
  have hd : decode 0x0000000000000005 = .ok .send := by decide
  refine ⟨fun hl => hi.reaches_preconditionViolated hprog hd (exec_send_of_uninit hl), fun hl => ?_⟩
  have hleads : (({ s with program := rest } : State).sendEffect (if (s.draw 0).ok then .ok else .fail)).Leads s := by
    rw [← hi.ended_dropCmd_accept 0x0000000000000005 rest]
    exact hi.leads hprog hd (exec_send_of_ready hl) (hi.inProgress_dropCmd_accept _ rest).leads_sendEffect
  obtain ⟨n, sc, k, hr⟩ := hleads
  refine ⟨n, _, sc, k, if (s.draw 0).ok then .ok else .fail, hr, hi, ?_, ?_, rfl⟩
  · cases (s.draw 0).ok <;> simp
  · cases (s.draw 0).ok <;> simp

/-! ## The endless wait for the bus (R140, R196) -/

/-- From `s`, in which an `INIT` runs, `u` waits for a bus that is never granted; nothing else has happened. -/
def State.Waits (s u : State) : Prop := ∃ d sc k, d.granted = false ∧ u = (s.redraw sc k).setPending ⟨.acquire, d⟩

theorem State.waits_request_acquire {s : State} (hg : (s.draw 0).granted = false) : s.Waits (s.request .acquire afterAcquire) :=
  ⟨s.draw 0, s.script.drop 1, s.draws + 1, hg, s.request_later _ _ (Draw.answers_acquire_of_not_granted hg)⟩

/-- The wait for a bus that is never granted goes on with every step. -/
theorem State.Waits.step {p : List Cmd} {s u : State} (h : s.Waits u) (hs : s.InProgress p none) : ∃ t, step u = .next t ∧ s.Waits t := by
  obtain ⟨d, sc, k, hd, rfl⟩ := h
  refine ⟨_, step_of_waiting _ ⟨.acquire, d⟩ hs.legal hs.busy rfl hs.cmd hs.rst, d.tick, sc, k + 1, hd, ?_⟩
  exact if_neg (by simp [Draw.answers_acquire_of_not_granted (d := d.tick) hd])

theorem State.Waits.exists_reaches {p : List Cmd} {s u : State} (h : s.Waits u) (hs : s.InProgress p none) (n : Nat) :
    ∃ t, Reaches n u t ∧ s.Waits t := by
  induction n generalizing u with
  | zero => exact ⟨u, rfl, h⟩
  | succ n ih =>
    obtain ⟨v, hv, hw⟩ := h.step hs
    obtain ⟨t, ht, hwt⟩ := ih hw
    exact ⟨t, ⟨v, hv, ht⟩, hwt⟩

/-- A run of `n` steps leads to one state. -/
theorem Reaches.unique {n : Nat} {s t u : State} (ht : Reaches n s t) (hu : Reaches n s u) : t = u := by
  induction n generalizing s with
  | zero => exact ht.symm.trans hu
  | succ n ih =>
    obtain ⟨v, hv, ht⟩ := ht
    obtain ⟨v', hv', hu⟩ := hu
    cases hv.symm.trans hv'
    exact ih ht hu

/-- An `INIT` that is offered and never granted the bus waits for it from its second step on. -/
theorem State.idle.exists_waits {s : State} {rest : List Cmd} (h : s.idle) (hl : s.lifecycle = .uninit)
    (hprog : s.program = 0x0000000000000001 :: rest) (hg : (s.draw 0).granted = false) (n : Nat) :
    ∃ t, Reaches (n + 2) s t ∧ (s.accept 0x0000000000000001 rest).dropCmd.Waits t := by
  have hruns := h.inProgress_dropCmd_accept 0x0000000000000001 rest
  obtain ⟨t, ht, hw⟩ := (State.waits_request_acquire (s := (s.accept _ rest).dropCmd) hg).exists_reaches hruns n
  exact ⟨t, ⟨_, step_of_idle s _ rest h hprog, _, (h.step_accept (by decide)).trans (exec_init_of_uninit hl), ht⟩, hw⟩

/-- Settles O32: an `INIT` that runs without the bus waits after any number of steps (`State.idle.exists_waits`). -/
theorem initWaitsForeverWithoutTheBus : Obligations.InitWaitsForeverWithoutTheBus := by
  intro s rest hi hl hprog hg n
  obtain ⟨t, ht, d, sc, k, -, rfl⟩ := hi.exists_waits hl hprog hg n
  exact ⟨_, ht, rfl, rfl, hl, rfl, rfl, rfl, rfl, rfl⟩

/-- Settles O31: a granted `INIT` leads to its effect through its three requests (`State.InProgress.leads_initEffect`); every run of an
ungranted one is the endless wait (`State.idle.exists_waits`, `Reaches.unique`). -/
theorem initCompletesWhenGranted : Obligations.InitCompletesWhenGranted := by
  intro s rest hi hprog
  have hd : decode 0x0000000000000001 = .ok .init := by decide
  refine ⟨fun hl => hi.reaches_preconditionViolated hprog hd (exec_init_of_ready hl), fun hl hg => ?_, fun hl hg n t ht => ?_⟩
  · have hleads : ({ s with program := rest } : State).initEffect.Leads s := by
      rw [← hi.ended_dropCmd_accept 0x0000000000000001 rest]
      exact hi.leads hprog hd (exec_init_of_uninit hl) ((hi.inProgress_dropCmd_accept _ rest).leads_initEffect hl hg)
    obtain ⟨n, sc, k, hr⟩ := hleads
    exact ⟨n, _, sc, k, hr, hi, rfl⟩
  · cases n with
    | zero =>
      cases ht.unique ⟨_, step_of_idle s _ rest hi hprog, rfl⟩
      rfl
    | succ n =>
      obtain ⟨u, hu, d, sc, k, -, rfl⟩ := hi.exists_waits hl hprog hg n
      cases ht.unique hu
      rfl

end Sys2Proof.Machine

/-! PROOFS of the family 60_exceptions.md: the checks of a command and their order (R163, R167), errors that change nothing else (R160), and
steps that never stop (R165, R175). -/

namespace Sys2Proof.Machine

/-! ## The lifecycle check (R163) -/

/-- Every meaning begins with its lifecycle check. -/
theorem exec_of_lifecycle_ne {i : Instr} {s : State} (h : s.lifecycle ≠ needs i) : exec i s = .next (s.raise .preconditionViolated) := by
  cases i with
  | init => exact if_pos h
  | deinit => exact if_pos h
  | setPixel idx r g b => exact if_pos h
  | setAll r g b => exact if_pos h
  | send => exact if_pos h

/-- Settles O20, by `exec_of_lifecycle_ne`. -/
theorem wrongLifecycleRaises : Obligations.WrongLifecycleRaises := fun _ _ => exec_of_lifecycle_ne

/-! ## Steps that never stop (R165, R175) -/

/-- Settles O51, by `State.idle.step_eq_self`. -/
theorem idleBlockStays : Obligations.IdleBlockStays := fun _ h hprog => h.step_eq_self hprog

theorem step_of_rst {s : State} (hl : s.cfg.legal = true) (hr : s.rst = true) : step s = .next s.resetBlock :=
  (if_pos hl).trans (if_pos hr)

theorem exists_runWord_eq_next (w : Cmd) (s : State) : ∃ t, runWord w s = .next t := by
  cases hd : decode w with
  | error e => exact ⟨_, runWord_of_error hd s⟩
  | ok i =>
    obtain ⟨t, ht⟩ := execNeverStops i s
    exact ⟨t, (runWord_of_ok hd s).trans ht⟩

theorem State.idle.exists_step_eq_next {s : State} (h : s.idle) : ∃ t, step s = .next t := by
  cases hprog : s.program with
  | nil => exact ⟨s, h.step_eq_self hprog⟩
  | cons w rest => exact ⟨_, step_of_idle s w rest h hprog⟩

/-- A block that is not busy and meets the invariant is idle (R23, R35). -/
theorem State.Inv.idle {s : State} (h : s.Inv) (hr : s.rst = false) (hb : s.busy = false) : s.idle := by
  have hc : s.cmd = none := by simpa [hb, h.pending_eq_none hb] using h.handshake
  exact ⟨h.legal, hb, h.pending_eq_none hb, hc, hr⟩

/-- Settles O48: the invariant leaves a block that resets, runs a word, waits, or is idle, and each of the four steps answers a next
state. -/
theorem noStopUnderInvariant : Obligations.NoStopUnderInvariant := by
  intro s h
  cases hr : s.rst with
  | true => exact ⟨_, step_of_rst h.legal hr⟩
  | false =>
    cases hb : s.busy with
    | false => exact (h.idle hr hb).exists_step_eq_next
    | true =>
      obtain ⟨w, hw⟩ | ⟨o, ho⟩ := h.holds_or_inProgress hr hb
      · exact step_of_holds s w hw ▸ exists_runWord_eq_next w s.dropCmd
      · exact ⟨_, step_of_waiting s o ho.legal ho.busy ho.pending ho.cmd ho.rst⟩

/-! ## What cannot end with an error

Once an `INIT` or a `DEINIT` has passed its lifecycle check and sent its first request, its end is `OK` (R131, R134). -/

/-- The block's command has completed `OK`, or waits for an answer that says nothing but `done`. -/
inductive State.CannotFail : State → Prop
  | completes {t : State} (hb : t.busy = false) (hres : t.result = .ok) : t.CannotFail
  | waits {t : State} {o : Outstanding} (hb : t.busy = true) (hp : t.pending = some o) (ho : isTransmit o.req = false) : t.CannotFail

theorem State.painted_result (s : State) (m : Memory) : (s.painted m).result = .ok := rfl

theorem State.cannotFail_painted (s : State) (m : Memory) : (s.painted m).CannotFail := .completes rfl rfl

theorem State.CannotFail.result_eq_ok {t : State} (h : t.CannotFail) (hb : t.busy = false) : t.result = .ok := by
  cases h with
  | completes _ hres => exact hres
  | waits hb' _ _ => simp [hb] at hb'

section

variable {s : State}

theorem State.cannotFail_request {r : Request} {next : State → Answer → State} (hb : s.busy = true) (hr : isTransmit r = false)
    (now : ∀ u a, u.busy = true → (next u a).CannotFail) : (s.request r next).CannotFail :=
  State.request_elim (.waits hb rfl hr) (now _ _ hb)

theorem cannotFail_afterInitLow (s : State) (a : Answer) : (afterInitLow s a).CannotFail := .completes rfl rfl

theorem cannotFail_afterInert (s : State) (a : Answer) : (afterInert s a).CannotFail := .completes rfl rfl

theorem cannotFail_afterInitConfig (hb : s.busy = true) (a : Answer) : (afterInitConfig s a).CannotFail :=
  State.cannotFail_request hb rfl fun u a _ => cannotFail_afterInitLow u a

theorem cannotFail_afterAcquire (hb : s.busy = true) (a : Answer) : (afterAcquire s a).CannotFail :=
  State.cannotFail_request hb rfl fun _ a hu => cannotFail_afterInitConfig hu a

theorem cannotFail_afterDeinitLow (hb : s.busy = true) (a : Answer) : (afterDeinitLow s a).CannotFail :=
  State.cannotFail_request hb rfl fun u a _ => cannotFail_afterInert u a

theorem cannotFail_afterRelease (hb : s.busy = true) (a : Answer) : (afterRelease s a).CannotFail :=
  State.cannotFail_request hb rfl fun _ a hu => cannotFail_afterDeinitLow hu a

theorem State.cannotFail_request_acquire (hb : s.busy = true) : (s.request .acquire afterAcquire).CannotFail :=
  State.cannotFail_request hb rfl fun _ a hu => cannotFail_afterAcquire hu a

theorem State.cannotFail_request_release (hb : s.busy = true) : (s.request .release afterRelease).CannotFail :=
  State.cannotFail_request hb rfl fun _ a hu => cannotFail_afterRelease hu a

theorem cannotFail_resume (hb : s.busy = true) {r : Request} (hr : isTransmit r = false) (a : Answer) : (resume s r a).CannotFail := by
  cases r with
  | acquire => exact cannotFail_afterAcquire hb a
  | release => exact cannotFail_afterRelease hb a
  | pinCfg m _ _ =>
    cases m
    · exact cannotFail_afterInert s a
    · exact cannotFail_afterInitConfig hb a
  | pinWrite _ =>
    simp only [resume]
    split
    · exact cannotFail_afterInitLow s a
    · exact cannotFail_afterDeinitLow hb a
  | transmit _ _ _ => cases hr

theorem State.cannotFail_await (hb : s.busy = true) {o : Outstanding} (ho : isTransmit o.req = false) : (s.await o).CannotFail := by
  rcases s.await_cases o with ⟨-, e⟩ | ⟨-, e⟩ <;> rw [e]
  · exact .waits hb rfl ho
  · exact cannotFail_resume (s := s.record o.req (o.draw.answer o.req)) hb ho _

end

/-! ## The order of the checks (R167) -/

/-- A command that raises before it has stored or sent anything. -/
theorem State.raise_writes_nothing {s : State} (hp : s.pending = none) (c : ResultCode) :
    (s.raise c).result = c ∧ (s.raise c).fb = s.fb ∧ (s.raise c).trace = s.trace ∧ (s.raise c).pending = none :=
  ⟨s.raise_result c, s.raise_fb c, s.raise_trace c, (s.raise_pending c).trans hp⟩

/-- The acceptance of an offered word and its run. -/
theorem State.idle.reaches_of_runWord {s t : State} {w : Cmd} {rest : List Cmd} (h : s.idle) (hprog : s.program = w :: rest)
    (hrun : runWord w (s.accept w rest).dropCmd = .next t) : Reaches 2 s t :=
  ⟨_, step_of_idle s w rest h hprog, t, (step_of_holds _ w (h.accept w rest)).trans hrun, rfl⟩

theorem State.result_request_send {s : State} (hb : s.busy = true) (hend : (s.request s.sendRequest afterTransmit).busy = false) :
    (s.request s.sendRequest afterTransmit).result = if (s.draw 0).ok then .ok else .transferFailed := by
  refine State.request_elim (P := fun t => t.busy = false → t.result = if (s.draw 0).ok then .ok else .transferFailed)
    (fun hwait => ?waits) (fun _ => ?ends) hend
  case waits => simp [hb] at hwait
  case ends =>
    rw [← s.takeDraw_sendRequest, afterTransmit_record]
    cases hok : (s.draw 0).ok <;> simp [State.ended, State.sendEffect, State.sendRequest, Draw.answer, hok]

/-- Settles O22, one case per check in R167's order: decode, lifecycle (`exec_of_lifecycle_ne`), index, and the platform's answer, which is
an error for `SEND` alone (`State.result_request_send`, `State.CannotFail`). -/
theorem errorPriority : Obligations.ErrorPriority := by
  intro s w rest hi hprog
  have hp : (s.accept w rest).dropCmd.pending = none := (hi.accept w rest).inProgress_dropCmd.pending
  cases hd : decode w with
  | error e => exact ⟨_, hi.reaches_of_runWord hprog (runWord_of_error hd _), State.raise_writes_nothing hp _⟩
  | ok i =>
    have hreach {t : State} (hx : exec i (s.accept w rest).dropCmd = .next t) : Reaches 2 s t :=
      hi.reaches_of_runWord hprog ((runWord_of_ok hd _).trans hx)
    by_cases hl : s.lifecycle = needs i
    · simp only [hl, ne_eq, not_true_eq_false, if_false]
      cases i with
      | init => exact ⟨_, hreach (exec_init_of_uninit hl), (State.cannotFail_request_acquire rfl).result_eq_ok⟩
      | deinit => exact ⟨_, hreach (exec_deinit_of_ready hl), (State.cannotFail_request_release rfl).result_eq_ok⟩
      | setPixel idx r g b =>
        by_cases hidx : s.cfg.nLeds ≤ idx.toNat
        · simp only [hidx, if_true]
          exact ⟨_, hreach (exec_setPixel_of_nLeds_le r g b hl hidx), State.raise_writes_nothing hp _⟩
        · simp only [hidx, if_false]
          exact ⟨_, hreach (exec_setPixel_of_lt r g b hl (not_le.1 hidx)), State.painted_result _ _⟩
      | setAll r g b => exact ⟨_, hreach (exec_setAll_of_ready r g b hl), State.painted_result _ _⟩
      | send => exact ⟨_, hreach (exec_send_of_ready hl), State.result_request_send rfl⟩
    · simp only [hl, ne_eq, not_false_eq_true, if_true]
      exact ⟨_, hreach (exec_of_lifecycle_ne hl), State.raise_writes_nothing hp _⟩

/-! ## Errors are precise (R160)

Up to its end, a command either can no longer fail or has changed nothing that an error must leave alone. -/

/-- The block with `BUSY`, `RESULT`, `PENDING`, the accepted word and the platform's part blanked: what is left, a command that will end with
an error leaves alone before its end. -/
def State.kept (s : State) : State := { s with busy := false, result := .ok, pending := none, cmd := none, script := [], draws := 0 }

/-- What an error leaves as it was is compared with the kept part of the block before it. -/
theorem ErrorFrame.of_kept_eq {s u t : State} (hk : u.kept = s.kept) (h : ErrorFrame u t) : ErrorFrame s t := by
  have hframe : ErrorFrame u.kept t := h
  rw [hk] at hframe
  exact hframe

theorem errorFrame_raise (s : State) (c : ResultCode) : ErrorFrame s (s.raise c) := by
  refine ⟨s.raise_fb c, s.raise_lifecycle c, s.raise_busOwned c, s.raise_pinMode c, s.raise_cfg c, ?_, fun d hd => ?_,
    .inl (s.raise_trace c)⟩
  · simp [State.raise_sticky]
  · rw [s.raise_result] at hd
    simp [State.raise_sticky, hd.symm]

/-- A failed transmit adds its event, and nothing more than `raise` changes. -/
theorem errorFrame_transferFailed (s : State) (bytes : List Byte) (len timeout : Nat) :
    ErrorFrame s ((s.record (.transmit bytes len timeout) .fail).raise .transferFailed) := by
  obtain ⟨hfb, hlife, hown, hmode, hcfg, hset, hsticky, -⟩ :=
    errorFrame_raise (s.record (.transmit bytes len timeout) .fail) .transferFailed
  exact ⟨hfb, hlife, hown, hmode, hcfg, hset, hsticky, .inr ⟨rfl, bytes, len, timeout, rfl⟩⟩

/-- Where a command that began in `s` may stand between two steps, or at its end (R160): it can no longer fail, or it has changed nothing
yet, or it has failed and changed only what an error may. -/
inductive State.Precise (s : State) : State → Prop
  | cannotFail {t : State} (h : t.CannotFail) : s.Precise t
  | unchanged {t : State} (hb : t.busy = true) (hk : t.kept = s.kept) : s.Precise t
  | fails {t : State} (hb : t.busy = false) (h : ErrorFrame s t) : s.Precise t

namespace State.Precise

variable {s t u : State}

theorem errorFrame (h : s.Precise t) (hb : t.busy = false) (hres : t.result ≠ .ok) : ErrorFrame s t := by
  cases h with
  | cannotFail h => exact absurd (h.result_eq_ok hb) hres
  | unchanged hb' _ => simp [hb] at hb'
  | fails _ h => exact h

/-- A command that has not ended and waits for no answer but a transfer's has changed nothing. -/
theorem kept_eq (h : s.Precise u) (hb : u.busy = true) (hp : ∀ o, u.pending = some o → isTransmit o.req = true) : u.kept = s.kept := by
  cases h with
  | cannotFail h =>
    cases h with
    | completes hb' _ => simp [hb] at hb'
    | waits _ ho hr => simp [hp _ ho] at hr
  | unchanged _ hk => exact hk
  | fails hb' _ => simp [hb] at hb'

theorem raise (hk : u.kept = s.kept) (c : ResultCode) : s.Precise (u.raise c) :=
  .fails (u.raise_busy c) ((errorFrame_raise u c).of_kept_eq hk)

/-- A transfer that succeeds completes `OK`, one that fails raises. -/
theorem afterTransmit (hk : u.kept = s.kept) (bytes : List Byte) (len timeout : Nat) (d : Draw) :
    s.Precise (Machine.afterTransmit (u.record (.transmit bytes len timeout) (d.answer (.transmit bytes len timeout)))
      (d.answer (.transmit bytes len timeout))) := by
  simp only [Draw.answer]
  cases d.ok with
  | true => exact .cannotFail (.completes rfl rfl)
  | false => exact .fails rfl ((errorFrame_transferFailed u bytes len timeout).of_kept_eq hk)

theorem request_send (hb : u.busy = true) (hk : u.kept = s.kept) : s.Precise (u.request u.sendRequest Machine.afterTransmit) :=
  State.request_elim (.unchanged hb hk) (afterTransmit (u := u.takeDraw) hk _ _ _ _)

theorem exec {i : Instr} (hb : u.busy = true) (hk : u.kept = s.kept) (hx : Machine.exec i u = .next t) : s.Precise t := by
  by_cases hl : u.lifecycle = needs i
  · cases i with
    | init =>
      cases (exec_init_of_uninit hl).symm.trans hx
      exact .cannotFail (State.cannotFail_request_acquire hb)
    | deinit =>
      cases (exec_deinit_of_ready hl).symm.trans hx
      exact .cannotFail (State.cannotFail_request_release hb)
    | setPixel idx r g b =>
      rcases le_or_gt u.cfg.nLeds idx.toNat with hidx | hidx
      · cases (exec_setPixel_of_nLeds_le r g b hl hidx).symm.trans hx
        exact raise hk _
      · cases (exec_setPixel_of_lt r g b hl hidx).symm.trans hx
        exact .cannotFail (u.cannotFail_painted _)
    | setAll r g b =>
      cases (exec_setAll_of_ready r g b hl).symm.trans hx
      exact .cannotFail (u.cannotFail_painted _)
    | send =>
      cases (exec_send_of_ready hl).symm.trans hx
      exact request_send hb hk
  · cases (exec_of_lifecycle_ne hl).symm.trans hx
    exact raise hk _

theorem await (h : s.Precise u) (hb : u.busy = true) {o : Outstanding} (ho : u.pending = some o) : s.Precise (u.await o) := by
  cases ht : isTransmit o.req with
  | false => exact .cannotFail (State.cannotFail_await hb ht)
  | true =>
    have hk : u.kept = s.kept := h.kept_eq hb (by simp [ho, ht])
    obtain ⟨r, d⟩ := o
    cases r with
    | transmit bytes len timeout =>
      rcases u.await_cases ⟨.transmit bytes len timeout, d⟩ with ⟨-, e⟩ | ⟨-, e⟩ <;> rw [e]
      · exact .unchanged hb hk
      · exact afterTransmit hk bytes len timeout d
    | acquire | release | pinCfg _ _ _ | pinWrite _ => cases ht

/-- Each step of a command in progress, a reset that abandons it among them. -/
theorem step (h : s.Precise u) (hb : u.busy = true) (hs : Machine.step u = .next t) : s.Precise t := by
  obtain ⟨-, ⟨-, rfl⟩ | ⟨-, -, -, o, ho, rfl⟩ | ⟨⟨-, hb', -⟩, -⟩ | ⟨w, ⟨-, -, hp, -⟩, hrun⟩⟩ := step_cases hs
  · exact .cannotFail (.completes rfl rfl)
  · exact h.await hb ho
  · simp [hb] at hb'
  · have hk : u.dropCmd.kept = s.kept := h.kept_eq hb (by simp [hp])
    obtain ⟨e, -, rfl⟩ | ⟨i, -, hx⟩ := hrun
    · exact raise hk _
    · exact exec (u := u.dropCmd) hb hk hx

theorem reaches {n : Nat} (h : s.Precise u) (hr : Reaches n u t) (hb : ∀ m < n, ∀ v, Reaches m u v → v.busy = true) : s.Precise t := by
  induction n generalizing u with
  | zero => exact hr ▸ h
  | succ n ih =>
    obtain ⟨v, hv, hr⟩ := hr
    exact ih (h.step (hb 0 n.succ_pos u rfl) hv) hr fun m hm x hx => hb (m + 1) (Nat.succ_lt_succ hm) x ⟨v, hv, hx⟩

end State.Precise

/-- Settles O23: a command that begins is precise, and stays so in each of its steps (`State.Precise.step`) and along them
(`State.Precise.reaches`). -/
theorem errorsArePrecise : Obligations.ErrorsArePrecise := by
  refine ⟨fun n s t w hw hr hbusy hend hres => ?_, fun s t hs _ hb hend hres => ?_⟩
  · obtain ⟨-, hb, -⟩ := hw
    have hbegin : s.Precise s := .unchanged hb rfl
    exact (hbegin.reaches hr hbusy).errorFrame hend hres
  · have hbegin : s.Precise s := .unchanged hb rfl
    exact (hbegin.step hb hs).errorFrame hend hres

end Sys2Proof.Machine

/-! PROOFS of the family 70_reset_and_hazards.md: the reset values (R190), the reset of a busy block (R191), the reset region on the wire
(R198), and unwritten slots (R201). -/

namespace Sys2Proof.Machine

/-! ## Reset (R190, R191) -/

/-- After reset no byte of `FB` is listed, so each reads as its reset contents (R21, R190). -/
@[simp] theorem State.fbByte_resetWith (p : Params) (a : Nat) : (State.resetWith p).fbByte a = 0x00 := rfl

/-- Settles O3: every field is R20's by the definition of `State.resetWith`, `FB` by `State.fbByte_resetWith` and the status port by the word
it shows (`State.statusWord_resetWith`). -/
theorem resetValues : Obligations.ResetValues := fun p =>
  ⟨State.fbByte_resetWith p, rfl, rfl, rfl, rfl, rfl, rfl, rfl, rfl, rfl, rfl, rfl, rfl,
    (State.statusPort_of_idle rfl).trans (State.statusWord_resetWith p)⟩

/-- Settles O4: a step of a legal block honours the reset before anything else (`step_of_rst`). -/
theorem resetAbandonsCommand : Obligations.ResetAbandonsCommand := fun _ => step_of_rst

/-! ## The reset region on the wire (R198) -/

/-- An event that carries a whole frame and is answered `ok` puts `FB_LEN` bytes on the wire, the reset region's zeros last. -/
theorem Event.wire_of_wholeFrame {p : Params} {e : Event} (h : e.req.wholeFrame p) (ht : isTransmit e.req = true) (hok : e.ans = .ok)
    (cut : Nat) : (e.wire cut).length = p.fbLen ∧ (e.wire cut).drop p.ledLen = List.replicate p.resetLen 0x00 := by
  obtain ⟨r, a⟩ := e
  subst hok
  cases r with
  | transmit bytes len timeout =>
    obtain ⟨hlen, -, -, hreset⟩ := h
    exact ⟨hlen, hreset⟩
  | acquire | release | pinCfg _ _ _ | pinWrite _ => cases ht

/-- Settles O36: the invariant says that every transmit of the trace carries a whole frame, and `ok` that all of it went out
(`Event.wire_of_wholeFrame`). -/
theorem framesEndWithResetRegion : Obligations.FramesEndWithResetRegion := by
  intro s e cut hi he ht hok
  have hled : s.cfg.fbLen - s.cfg.resetLen = s.cfg.ledLen := Nat.add_sub_cancel _ _
  rw [hled]
  exact Event.wire_of_wholeFrame (hi.frames e he) ht hok cut

/-! ## Unwritten slots (R201) -/

/-- The slot of an LED lies inside `FB` (R50). -/
theorem slotBase_add_le_fbLen {p : Params} {i : Nat} (hi : i < p.nLeds) : slotBase i + 24 ≤ p.fbLen := by
  simp only [slotBase, Params.fbLen]
  omega

/-- The part of the frame that stands for one LED: the 24 bytes of its slot. -/
theorem State.slot_of_frame (s : State) {i : Nat} (hi : i < s.cfg.nLeds) :
    (s.frame.drop (slotBase i)).take 24 = (List.range 24).map fun j => s.fbByte (slotBase i + j) := by
  have hslot := slotBase_add_le_fbLen hi
  refine List.ext_getElem? fun j => ?_
  rw [List.getElem?_take, List.getElem?_drop, List.getElem?_map]
  by_cases hj : j < 24
  · rw [if_pos hj, s.getElem?_frame (by omega), List.getElem?_range hj]
    rfl
  · rw [if_neg hj, List.getElem?_eq_none (by simpa using hj)]
    rfl

/-- Settles O37: the one event of a prompt `SEND` carries the frame (`exec_send_trace_of_prompt`), in which an LED's bytes are its slot's
(`State.slot_of_frame`). -/
theorem unwrittenSlotsAreIdleBytes : Obligations.UnwrittenSlotsAreIdleBytes := by
  refine ⟨fun p i j _ _ => State.fbByte_resetWith p _, fun p => ⟨p.pHi.byte_ne_zero, p.pLo.byte_ne_zero⟩, fun s i hl hp hi hzero => ?_⟩
  obtain ⟨t, a, ht, htrace⟩ := exec_send_trace_of_prompt hl hp
  refine ⟨t, s.frame, a, ht, htrace, ?_⟩
  rw [s.slot_of_frame hi, List.map_congr_left fun j hj => hzero j (List.mem_range.1 hj)]
  exact List.map_const'

end Sys2Proof.Machine
